-- ==== Sys2Proof/Word.lean ====
section
/-! DEFINITION. The byte and the word of the block (00_scope.md section 6: a byte is 8 bits, a word is 16 bits,
unsigned). Everything computed from them stands in Machine/Bits.lean. -/

namespace Sys2Proof

/-- A byte, bit 7 the most significant (00_scope.md section 6). -/
abbrev Byte := BitVec 8

/-- A word: the width of a remote register, of a register address and of the CRC (R4). -/
abbrev Word := BitVec 16

end Sys2Proof
end

