-- ==== Sys2Proof/Config.lean ====
section
/-! DEFINITION. The fixed parameters of R4 and the model's free values: what the transport does at each call (R25, R47,
U11), and the results the spec does not state for operands outside a stated domain (log 17, log 24). The OPEN parameters
of R4 are configuration registers and stand in State (R22). -/

namespace Sys2Proof.Config

/-- `CRC_SEED`, the initial accumulator (R4, R90). -/
def crcSeed : Word := 0xFFFF

/-- `CRC_POLY_REFLECTED`, the feedback constant of the right-shifting register (R4, R90). -/
def crcPoly : Word := 0xA001

/-- `FIXED_RSP_LEN`, the length of a write acknowledgment (R4). -/
def fixedRspLen : Nat := 8

/-- `HEAD_LEN`, the bytes received before the response length is known (R4). -/
def headLen : Nat := 3

/-- `MAX_WM_COUNT`, the most words in one `writeWords` (R4). -/
def maxWmCount : Nat := 127

/-- `TXBUF_MAX`, the longest request frame (R4, R11). -/
def txbufMax : Nat := 263

/-- The longest payload of a request frame (R110). -/
def maxPayload : Nat := 259

/-- `RXBUF_MAX`, the longest response frame (R4, R12). -/
def rxbufMax : Nat := 260

/-- The capacity of `RESULT` in words (R14). -/
def resultMax : Nat := 127

end Sys2Proof.Config

namespace Sys2Proof

/-- What the transport may answer to a call besides data (R44, R46, R49): success, an ordinary fault (for a receive:
no byte in time), or the transport's own fatal fault. -/
inductive Answer where
  | ok
  | fault
  | fatalFault
  deriving DecidableEq, Repr, Inhabited

/-- What the environment does at one transport call: the bytes the line delivers then, and the answer. -/
structure Turn where
  arrivals : List Byte
  answer : Answer
  deriving DecidableEq, Repr, Inhabited

/-- The environment's choice at the `n`-th call for which the state names none: a FREE VALUE, with no body
(R25, R47, U11; log 3). -/
opaque Config.freeTurn : Nat → Turn

/-- The byte that a rule names at an index where the frame has none (R133 to R135 take a complete frame): a FREE VALUE
(log 17). -/
opaque Config.absentByte : List Byte → Nat → Byte

/-- What `buildFrame` gives for a device address, an `fn` and a payload longer than R110's domain: a FREE VALUE
(log 17). -/
opaque Config.unstatedFrame : Byte → Byte → List Byte → List Byte

/-- What `ENC.WMULTI` gives for a start and more values than R113's domain: a FREE VALUE (log 17). -/
opaque Config.unstatedPayload : Word → List Word → List Byte

/-- The 16-bit `count` that the command port carries for a number outside its domain, given by its numerator and its
denominator less one (R70): a FREE VALUE (log 24). -/
opaque Config.unstatedCount : Int → Nat → Word

end Sys2Proof
end

