-- ==== Sys2Proof/Machine/Bits.lean ====
section
/-! DEFINITION. The byte-order and bit-field notation of 00_scope.md section 6 (R40, R41). -/

namespace Sys2Proof.Machine

/-- `w[15:8]`. -/
def hiByte (w : Word) : Byte := w.extractLsb' 8 8

/-- `w[7:0]`. -/
def loByte (w : Word) : Byte := w.extractLsb' 0 8

/-- `u16be(a, b) = a * 256 + b`. -/
def u16be (a b : Byte) : Word := BitVec.ofNat 16 (a.toNat * 256 + b.toNat)

/-- `u16le(a, b) = b * 256 + a`. -/
def u16le (a b : Byte) : Word := u16be b a

/-- `be16(w)`: high byte first, every 16-bit payload field (R40). -/
def be16 (w : Word) : List Byte := [hiByte w, loByte w]

/-- `le16(w)`: low byte first, the CRC trailer (R41). -/
def le16 (w : Word) : List Byte := [loByte w, hiByte w]

/-- `b[7] = 1`: in a function byte, the mark of an exception response (R61, R68). -/
def bit7 (b : Byte) : Bool := b.getLsbD 7

end Sys2Proof.Machine
end

