-- ==== Sys2Proof/Syntax.lean ====
section
/-! DEFINITION. The operations of the block, one constructor of `Instr` for each row of spec/opcode_table.json, and
the forms in which they are presented: the records and frames of 30_encoding.md (`PortWord`). -/

namespace Sys2Proof

/-- `REQ_MODE`: how long a response is (R13, R75). -/
inductive Mode where
  | fixed8
  | selfdesc
  deriving DecidableEq, Repr

/-- A write value as the command port carries it: an integer or a finite rational, `num / (denPred + 1)`
(R70, R163, U21; log 14). -/
structure Number where
  num : Int
  denPred : Nat
  deriving DecidableEq, Repr

/-- The integer `k` as a write value. -/
def Number.ofInt (k : Int) : Number := ⟨k, 0⟩

/-- The operations, one constructor per row of the opcode table. Wire rows carry every byte of the frame that the
row leaves free; the address byte of a request is `DEV_ADDR` and its CRC is determined, which `WellFormed` and the
meaning check. -/
inductive Instr where
  -- CRC port (R72)
  | crcNop
  | crcInit
  | crcUpdate (b : Byte)
  | crcReserved
  -- command port (R71)
  | readWords (start : Int) (count : Word)
  | writeWord (addr : Int) (value : Number)
  | writeWords (start : Int) (values : List Number)
  | cmdReserved (fn : Byte) (a : Int) (b : Number) (vals : List Number)
  -- wire formats emitted by the block (R62, R63, R64)
  | reqRead (address : Byte) (start count crc : Word)
  | reqWSingle (address : Byte) (reg value crc : Word)
  | reqWMulti (address : Byte) (start : Word) (values : List Word) (crc : Word)
  -- wire formats received by the block (R65 to R68)
  | rspRead (address : Byte) (data : List Byte) (crc : Word)
  | rspWSingle (address : Byte) (reg value crc : Word)
  | rspWMulti (address : Byte) (start count crc : Word)
  | rspExc (address function errorCode : Byte) (crc : Word)
  -- functions
  | crc16 (s : List Byte)
  | computeCrc (bytes : List Byte)
  | appendCrc (frame : List Byte)
  | isValid (frame : List Byte)
  | buildFrame (fn : Byte) (payload : List Byte)
  | encRead (start count : Word)
  | encWSingle (addr value : Word)
  | encWMulti (start : Word) (values : List Word)
  | rxNeed (h0 h1 h2 : Byte) (mode : Mode)
  | validate (rx : List Byte) (fn : Byte) (mode : Mode) (count : Word)
  | excClass (code : Byte)
  | toWord (x : Number)
  | attempt (frame : List Byte) (fn : Byte) (mode : Mode) (count : Word)
  | execute (fn : Byte) (payload : List Byte) (mode : Mode) (count : Word)
  deriving DecidableEq, Repr

/-- A call of a function-level row, which has no bit pattern: its name and its operands (R76, R78; log 13). -/
inductive Call where
  | crc16 (s : List Byte)
  | computeCrc (bytes : List Byte)
  | appendCrc (frame : List Byte)
  | isValid (frame : List Byte)
  | buildFrame (fn : Byte) (payload : List Byte)
  | encRead (start count : Word)
  | encWSingle (addr value : Word)
  | encWMulti (start : Word) (values : List Word)
  | rxNeed (h0 h1 h2 : Byte) (mode : Mode)
  | validate (rx : List Byte) (fn : Byte) (mode : Mode) (count : Word)
  | excClass (code : Byte)
  | toWord (x : Number)
  | attempt (frame : List Byte) (fn : Byte) (mode : Mode) (count : Word)
  | execute (fn : Byte) (payload : List Byte) (mode : Mode) (count : Word)
  deriving DecidableEq, Repr

/-- An operation as it is presented to the block, in the spec's own encodings: a CRC port pair (R72), a command
record (R71), a frame emitted or received (R60; the direction tells them apart, R74), or a function call
(R76). Log 13. -/
inductive PortWord where
  | crc (op : BitVec 2) (crcIn : Byte)
  | cmd (fn : Byte) (a : Int) (b : Number) (vals : List Number)
  | tx (frame : List Byte)
  | rx (frame : List Byte)
  | call (c : Call)
  deriving DecidableEq, Repr

/-- Why the bytes of a frame are no row of the opcode table. What such bytes do is said where they are taken from the port
(log 13). -/
inductive DecodeError where
  /-- A frame to emit whose function byte is none of 0x03, 0x06, 0x10 (R61). -/
  | noRequestRow
  /-- A request frame whose length or `byteCount` is not the format's (R62, R63, R64). -/
  | requestLength
  /-- A received frame whose function byte is none of the response rows' (R61). -/
  | noResponseRow
  /-- A received frame whose length is not the format's (R65 to R68). -/
  | responseLength
  deriving DecidableEq, Repr

end Sys2Proof
end

