-- ==== Sys2Proof/Machine/Types.lean ====
section
/-! DEFINITION. The named values of the block: phases (R15), cause codes (R180), fatal causes (R21), exception
classes (R138), verdicts of the decoder (R133), results of an attempt (R166), the calls on the transport (R44), the
host's requests, and what a function-level operation returns. -/

namespace Sys2Proof.Machine

/-- `SEQ` (R15): an enumeration, with no numeric encoding assigned. -/
inductive Phase where
  | idle | delay | flush | send | recvHead | recvBody | check | fatal
  deriving DecidableEq, Repr

/-- The causes that `LAST_FAULT` records (R180). -/
inductive Cause where
  | none
  | usageBadAddress
  | usageBadOperand
  | usageBadFunction
  | frameCrc
  | frameAddress
  | frameFunction
  | frameLength
  | deviceException
  | transportTimeout
  | transportError
  deriving DecidableEq, Repr

/-- `FATAL_CAUSE` (R21). -/
inductive FatalCause where
  | none
  | exhaustedRetries
  | transportFatal
  deriving DecidableEq, Repr

/-- The class of a device exception code (R138). -/
inductive ExcClass where
  | illegalFunction | illegalAddress | illegalValue | slaveFailure | acknowledge | busy
  | negativeAcknowledge | memoryParityError | gatewayUnavailable | gatewayTargetNotResponding
  | unknown
  deriving DecidableEq, Repr

/-- What `validate` answers (R133): the result words, a frame fault with its cause, or a device exception with its
code. -/
inductive Verdict where
  | ok (words : List Word)
  | frameFault (c : Cause)
  | deviceException (code : Byte)
  deriving DecidableEq, Repr

/-- Why an attempt failed: a cause of R180, and with a device exception its code (R186). -/
inductive Failure where
  | plain (c : Cause)
  | exception (code : Byte)
  deriving DecidableEq, Repr

/-- What one attempt answers (R166). -/
inductive AttemptResult where
  | ok (words : List Word)
  | failed (f : Failure)
  | fatal
  deriving DecidableEq, Repr

/-- What `T.recvByte` answers (R47, R49). -/
inductive RecvAnswer where
  | byte (b : Byte)
  | timeout
  | fatalFault
  deriving DecidableEq, Repr

/-- One call on the transport with its answer (R44). The frames of the `send` calls, in order, are the transmit
stream (R23). -/
inductive TCall where
  | connect (a : Answer)
  | close
  | flushInput (discarded : Nat)
  | send (frame : List Byte) (a : Answer)
  | recvByte (a : RecvAnswer)
  deriving DecidableEq, Repr

/-- The four configuration registers (R22). -/
inductive ConfigReg where
  | devAddr | maxAttempts | rxTimeout | writeDelay
  deriving DecidableEq, Repr

/-- What the host can read (R10, R14, R17 to R22). -/
inductive HostReg where
  | crc | result | resultLen | busy | done | usage | fatal | fails | lastFault | excCode | fatalCause
  | devAddr | maxAttempts | rxTimeout | writeDelay
  deriving DecidableEq, Repr

/-- What the outside presents to the block: an operation in its encoded form, the reset input (R210), a
configuration write (R22), a register read, and the host's two calls on the transport (R44). -/
inductive PortItem where
  | op (w : PortWord)
  | reset
  | writeConfig (r : ConfigReg) (v : Nat)
  | read (r : HostReg)
  | connect
  | close
  deriving DecidableEq, Repr

/-- What a function-level operation or a host read returns to its caller. -/
inductive RetVal where
  | none
  | bool (b : Bool)
  | nat (n : Nat)
  | int (k : Int)
  | word (w : Word)
  | bytes (bs : List Byte)
  | words (ws : List Word)
  | verdict (v : Verdict)
  | excClass (c : ExcClass)
  | attempt (r : AttemptResult)
  | answer (a : Answer)
  deriving DecidableEq, Repr

end Sys2Proof.Machine
end

