-- ==== Sys2Proof/Machine/State.lean ====
section
/-! DEFINITION. The state of the block (10_state.md), of the transport it calls and of the host's port; the reasons a
step can stop; the state right after reset. -/

namespace Sys2Proof.Machine

/-- A frame buffer (R11, R12, R14): the cells that differ from `Memory.blank`, addresses strictly rising. A byte
buffer is a list of `Host.Cell`. -/
abbrev Memory (w : Nat) := List (Nat × BitVec w)

/-- What an unlisted cell reads as: zero. DESIGN CHOICE: R26 leaves the buffers' contents after reset unspecified,
and no rule reads a cell before it is written (log 1). -/
def Memory.blank {w : Nat} : BitVec w := 0

/-- The transport as the block meets it (R43 to R49, R24). -/
structure Transport where
  /-- The input buffer: bytes the line delivered and nobody consumed, first byte first (R24). -/
  inBuf : List Byte
  /-- The environment's coming choices that this state names, the next one first (log 3). -/
  turns : List Turn
  /-- The index of the next free turn, used where `turns` names none (log 3). -/
  draws : Nat
  /-- Every call made on the transport with its answer, oldest first; it holds the transmit stream (R23, R168). -/
  bus : List TCall
  deriving DecidableEq, Repr

/-- The state. Field by field: INVENTORY.md, heading State. -/
structure State where
  /-- `CRC`, the accumulator (R10). -/
  crc : Word
  /-- `TXBUF` (R11). -/
  txbuf : Memory 8
  /-- `TXLEN` (R11). -/
  txlen : Nat
  /-- `RXBUF` (R12). -/
  rxbuf : Memory 8
  /-- `RXLEN` (R12). -/
  rxlen : Nat
  /-- `RXNEED` (R12). -/
  rxneed : Nat
  /-- `REQ_FN` (R13). -/
  reqFn : Byte
  /-- `REQ_MODE` (R13). -/
  reqMode : Mode
  /-- `REQ_COUNT` (R13). -/
  reqCount : Word
  /-- `RESULT` (R14). -/
  result : Memory 16
  /-- `RESULT_LEN` (R14). -/
  resultLen : Nat
  /-- `SEQ` (R15). -/
  seq : Phase
  /-- `FAILS` (R17). -/
  fails : Nat
  /-- `DONE` (R18). -/
  done : Bool
  /-- `USAGE` (R18). -/
  usage : Bool
  /-- The flag `FATAL` (R18). -/
  fatal : Bool
  /-- `FIRST_WRITE_DONE` (R18). -/
  firstWriteDone : Bool
  /-- `LAST_FAULT` (R19); its code is `Cause.code`. -/
  lastFault : Cause
  /-- `EXC_CODE` (R20). -/
  excCode : Byte
  /-- `FATAL_CAUSE` (R21); its code is `FatalCause.code`. -/
  fatalCause : FatalCause
  /-- `DEV_ADDR` (R22). -/
  devAddr : Byte
  /-- `MAX_ATTEMPTS` (R22). -/
  maxAttempts : Nat
  /-- `RX_TIMEOUT` (R22). -/
  rxTimeout : Nat
  /-- `WRITE_DELAY` (R22). -/
  writeDelay : Nat
  /-- The transport (R24). -/
  tp : Transport
  /-- The host's requests not yet taken, oldest first (R151; log 5). -/
  port : List PortItem
  /-- What the last function-level operation or host read returned (the model's own; log 10). -/
  ret : RetVal
  deriving DecidableEq, Repr

/-- Reasons to stop with a fault. -/
inductive Fault where
  /-- A received byte has no place: `RXLEN` is at the capacity of `RXBUF` (R12: 260 bytes). Raised by
  `receiveByte`. Safe: no state that satisfies `State.Inv` raises it (log 18). -/
  | bufferOverrun
  deriving DecidableEq, Repr

/-- Reasons to give no meaning. -/
inductive Refusal where
  /-- The instruction has no meaning yet. Raised by `exec` alone. Safe. -/
  | notModelled (mnemonic : String)
  /-- `crc_op = 0b11`: a model refuses it (R73, U2). Raised by CRC.RESERVED. Safe (log 8). -/
  | reservedCrcOp
  /-- A configuration write outside `IDLE` (R22, R216, U8). Raised by `writeConfig`. Safe (log 19). -/
  | configNotIdle
  /-- A configuration value that is not legal (R22, U9). Raised by `writeConfig`. Safe (log 19). -/
  | illegalConfig
  /-- `RESULT` read while `DONE = 0` (D29, U6). Raised by `readReg`. Safe (log 20). -/
  | resultNotReady
  deriving DecidableEq, Repr

/-- The answer of a step. -/
abbrev Result := Host.Outcome State Fault Refusal

/-- The transport beside a block just reset. Reset does not touch it (R210); these values are the model's
(DESIGN CHOICE, logs 2 and 3). -/
def Transport.initial : Transport := { inBuf := [], turns := [], draws := 0, bus := [] }

/-- The block right after reset (R26). Where R26 says `unspecified` the value is the model's DESIGN CHOICE (log 2):
`CRC` the seed, `MAX_ATTEMPTS` and `RX_TIMEOUT` the least legal value, everything else zero. -/
def State.reset : State where
  crc := Config.crcSeed
  txbuf := []
  txlen := 0
  rxbuf := []
  rxlen := 0
  rxneed := 0
  reqFn := 0
  reqMode := .fixed8
  reqCount := 0
  result := []
  resultLen := 0
  seq := .idle
  fails := 0
  done := false
  usage := false
  fatal := false
  firstWriteDone := false
  lastFault := .none
  excCode := 0
  fatalCause := .none
  devAddr := 0
  maxAttempts := 1
  rxTimeout := 1
  writeDelay := 0
  tp := Transport.initial
  port := []
  ret := .none

end Sys2Proof.Machine
end

