-- ==== Sys2Proof/Machine/CrcPort.lean ====
section
/-! DEFINITION. The meanings of the CRC port rows (R72, R73, R91 to R93). They act on `CRC` alone. -/

namespace Sys2Proof.Machine

/-- `CRC <- c`. -/
def setCrc (c : Word) (s : State) : State := { s with crc := c }

/-- CRC.NOP (R91). -/
def execCrcNop (s : State) : Result := .next (setCrc s.crc s)

/-- CRC.INIT (R92). -/
def execCrcInit (s : State) : Result := .next (setCrc Config.crcSeed s)

/-- CRC.UPDATE b (R93). -/
def execCrcUpdate (b : Byte) (s : State) : Result := .next (setCrc (crcStep s.crc b) s)

/-- `crc_op = 0b11` is reserved and a model refuses it (R73, U2; log 8). -/
def execCrcReserved (_ : State) : Result := .refused .reservedCrcOp

end Sys2Proof.Machine
end

