-- ==== Sys2Proof/Machine/FrameEncode.lean ====
section
/-! DEFINITION. The frame encoder (41_frame_encode.md). -/

namespace Sys2Proof.Machine

/-- The bytes the CRC of a request covers: `[DEV_ADDR, fn] ‖ payload` (R110). -/
def frameBody (dev fn : Byte) (payload : List Byte) : List Byte := dev :: fn :: payload

/-- `buildFrame(fn, payload)` with the device address as an argument (R110). R110's payload has at most 259 bytes; the frame
for a longer one is free (DESIGN CHOICE, log 17). -/
def buildFrame (dev fn : Byte) (payload : List Byte) : List Byte :=
  if payload.length ≤ Config.maxPayload then appendCrc (frameBody dev fn payload)
  else Config.unstatedFrame dev fn payload

/-- The frame as `TXBUF` takes it: no more than its 263 bytes (R11). It is the whole of every frame whose payload R110 allows;
a free frame is cut to the capacity (log 17). -/
def requestFrame (dev fn : Byte) (payload : List Byte) : List Byte :=
  (buildFrame dev fn payload).take Config.txbufMax

/-- The CRC accumulator after a frame has been built: the CRC of all but its two CRC bytes (R10, R103). -/
def crcOfBuild (frame : List Byte) : Word := crc16 (frame.take (frame.length - 2))

/-- `ENC.READ(start, count)` (R111). -/
def encRead (start count : Word) : List Byte := be16 start ++ be16 count

/-- `ENC.WSINGLE(addr, value)` (R112). -/
def encWSingle (addr value : Word) : List Byte := be16 addr ++ be16 value

/-- The payload layout of RQ-WM (R64). -/
def wmultiPayload (start : Word) (values : List Word) : List Byte :=
  be16 start ++ be16 (BitVec.ofNat 16 values.length) ++ [BitVec.ofNat 8 (2 * values.length)] ++
    values.flatMap be16

/-- `ENC.WMULTI(start, values)` (R113). Its values are at most 127; the payload for more is free (DESIGN CHOICE, log 17). -/
def encWMulti (start : Word) (values : List Word) : List Byte :=
  if values.length ≤ Config.maxWmCount then wmultiPayload start values else Config.unstatedPayload start values

end Sys2Proof.Machine
end

