-- ==== Sys2Proof/Decode.lean ====
section
/-! DEFINITION. From what is presented to the block to an operation, total and rejecting by name; after it the
encoder, written from the same tables (30_encoding.md), and the numbering of opcode_table.json's words. -/

namespace Sys2Proof

open Machine

/-- The three function codes of a request, and no other (R61). -/
def fnRead : Byte := 0x03
def fnWSingle : Byte := 0x06
def fnWMulti : Byte := 0x10

/-- `fn` is one of 0x03, 0x06, 0x10 (R61). -/
def legalFn (fn : Byte) : Bool := fn = fnRead || fn = fnWSingle || fn = fnWMulti

/-- Write-class: function 0x06 or 0x10 (R61). -/
def writeClass (fn : Byte) : Bool := fn = fnWSingle || fn = fnWMulti

/-- The response length rule of a request: self-describing for 0x03, fixed for the write-class codes (R61, R151). -/
def modeOf (fn : Byte) : Mode := if fn = fnRead then .selfdesc else .fixed8

/-! ### The bytes of the wire formats -/

/-- The bytes a request's or a write acknowledgment's CRC covers when it carries two 16-bit fields: RQ-R, RQ-WS, RS-WS,
RS-WM (R62, R63, R66, R67). -/
def twoFieldBody (address fn : Byte) (x y : Word) : List Byte := address :: fn :: (be16 x ++ be16 y)

/-- The bytes RQ-WM's CRC covers (R64). -/
def wmultiBody (address : Byte) (start : Word) (values : List Word) : List Byte :=
  address :: fnWMulti :: wmultiPayload start values

/-- RS-R without its CRC: address, function, `byteCount`, data (R65). -/
def rspReadBody (address : Byte) (data : List Byte) : List Byte :=
  address :: fnRead :: BitVec.ofNat 8 data.length :: data

/-- RS-X without its CRC (R68). -/
def rspExcBody (address fn errorCode : Byte) : List Byte := [address, fn, errorCode]

/-- A frame from its body and its CRC field, low byte first (R41, R60). -/
def withCrc (body : List Byte) (crc : Word) : List Byte := body ++ le16 crc

/-! ### Decoding -/

/-- The first `n` big-endian words of a byte sequence, and what is left (R64). -/
def splitWords : Nat → List Byte → Option (List Word × List Byte)
  | 0, bs => some ([], bs)
  | n + 1, a :: b :: bs => (splitWords n bs).map fun r => (u16be a b :: r.1, r.2)
  | _ + 1, _ => none

/-- The row of a frame the block emits (R62 to R64, R78: the match is over the function byte). -/
def decodeRequest : List Byte → Except DecodeError Instr
  | address :: fn :: rest =>
    if fn = fnRead then
      match rest with
      | [s1, s0, c1, c0, k0, k1] => .ok (.reqRead address (u16be s1 s0) (u16be c1 c0) (u16le k0 k1))
      | _ => .error .requestLength
    else if fn = fnWSingle then
      match rest with
      | [r1, r0, v1, v0, k0, k1] => .ok (.reqWSingle address (u16be r1 r0) (u16be v1 v0) (u16le k0 k1))
      | _ => .error .requestLength
    else if fn = fnWMulti then
      match rest with
      | s1 :: s0 :: c1 :: c0 :: byteCount :: tail =>
        if byteCount.toNat = 2 * (u16be c1 c0).toNat then
          match splitWords (u16be c1 c0).toNat tail with
          | some (values, [k0, k1]) => .ok (.reqWMulti address (u16be s1 s0) values (u16le k0 k1))
          | _ => .error .requestLength
        else .error .requestLength
      | _ => .error .requestLength
    else .error .noRequestRow
  | _ => .error .requestLength

/-- The row of a frame the block receives, by its function byte (R65 to R68, R78). Whether the block takes it as
that row's frame is decided relative to `REQ_FN` when it is received (R74). -/
def decodeResponse : List Byte → Except DecodeError Instr
  | address :: fn :: rest =>
    if fn = fnRead then
      match rest with
      | byteCount :: tail =>
        match tail.drop byteCount.toNat with
        | [k0, k1] => .ok (.rspRead address (tail.take byteCount.toNat) (u16le k0 k1))
        | _ => .error .responseLength
      | _ => .error .responseLength
    else if fn = fnWSingle then
      match rest with
      | [r1, r0, v1, v0, k0, k1] => .ok (.rspWSingle address (u16be r1 r0) (u16be v1 v0) (u16le k0 k1))
      | _ => .error .responseLength
    else if fn = fnWMulti then
      match rest with
      | [s1, s0, c1, c0, k0, k1] => .ok (.rspWMulti address (u16be s1 s0) (u16be c1 c0) (u16le k0 k1))
      | _ => .error .responseLength
    else if bit7 fn then
      match rest with
      | [code, k0, k1] => .ok (.rspExc address fn code (u16le k0 k1))
      | _ => .error .responseLength
    else .error .noResponseRow
  | _ => .error .responseLength

/-- A function call (R76). -/
def decodeCall : Call → Instr
  | .crc16 s => .crc16 s
  | .computeCrc s => .computeCrc s
  | .appendCrc s => .appendCrc s
  | .isValid s => .isValid s
  | .buildFrame fn p => .buildFrame fn p
  | .encRead a c => .encRead a c
  | .encWSingle a v => .encWSingle a v
  | .encWMulti a vs => .encWMulti a vs
  | .rxNeed h0 h1 h2 m => .rxNeed h0 h1 h2 m
  | .validate rx fn m c => .validate rx fn m c
  | .excClass c => .excClass c
  | .toWord x => .toWord x
  | .attempt f fn m c => .attempt f fn m c
  | .execute fn p m c => .execute fn p m c

/-- The port's 16-bit `count` from the record's `b` (R70, R71): an integer in 0..65535 is itself; what the port carries for
any other number is free (DESIGN CHOICE, log 24). -/
def countOfNumber (b : Number) : Word :=
  if b.num % (b.denPred + 1) = 0 ∧ 0 ≤ b.num / (b.denPred + 1) ∧ b.num / (b.denPred + 1) ≤ 65535 then
    BitVec.ofInt 16 (b.num / (b.denPred + 1))
  else Config.unstatedCount b.num b.denPred

/-- The decoder: total on everything that can be presented. -/
def decode : PortWord → Except DecodeError Instr
  | .crc op b =>
    if op = 0 then .ok .crcNop
    else if op = 1 then .ok .crcInit
    else if op = 2 then .ok (.crcUpdate b)
    else .ok .crcReserved
  | .cmd fn a b vals =>
    if fn = fnRead then .ok (.readWords a (countOfNumber b))
    else if fn = fnWSingle then .ok (.writeWord a b)
    else if fn = fnWMulti then .ok (.writeWords a vals)
    else .ok (.cmdReserved fn a b vals)
  | .tx frame => decodeRequest frame
  | .rx frame => decodeResponse frame
  | .call c => .ok (decodeCall c)

/-! ### Encoding -/

/-- The encoder, from the same tables. Ignored operands (`crc_in` of CRC.NOP and CRC.INIT, `b` and `vals` where
unused) are encoded as zero and the empty sequence. -/
def encode : Instr → PortWord
  | .crcNop => .crc 0 0
  | .crcInit => .crc 1 0
  | .crcUpdate b => .crc 2 b
  | .crcReserved => .crc 3 0
  | .readWords start count => .cmd fnRead start (Number.ofInt count.toNat) []
  | .writeWord addr value => .cmd fnWSingle addr value []
  | .writeWords start values => .cmd fnWMulti start (Number.ofInt 0) values
  | .cmdReserved fn a b vals => .cmd fn a b vals
  | .reqRead address start count crc => .tx (withCrc (twoFieldBody address fnRead start count) crc)
  | .reqWSingle address reg value crc => .tx (withCrc (twoFieldBody address fnWSingle reg value) crc)
  | .reqWMulti address start values crc => .tx (withCrc (wmultiBody address start values) crc)
  | .rspRead address data crc => .rx (withCrc (rspReadBody address data) crc)
  | .rspWSingle address reg value crc => .rx (withCrc (twoFieldBody address fnWSingle reg value) crc)
  | .rspWMulti address start count crc => .rx (withCrc (twoFieldBody address fnWMulti start count) crc)
  | .rspExc address fn code crc => .rx (withCrc (rspExcBody address fn code) crc)
  | .crc16 s => .call (.crc16 s)
  | .computeCrc s => .call (.computeCrc s)
  | .appendCrc s => .call (.appendCrc s)
  | .isValid s => .call (.isValid s)
  | .buildFrame fn p => .call (.buildFrame fn p)
  | .encRead a c => .call (.encRead a c)
  | .encWSingle a v => .call (.encWSingle a v)
  | .encWMulti a vs => .call (.encWMulti a vs)
  | .rxNeed h0 h1 h2 m => .call (.rxNeed h0 h1 h2 m)
  | .validate rx fn m c => .call (.validate rx fn m c)
  | .excClass c => .call (.excClass c)
  | .toWord x => .call (.toWord x)
  | .attempt f fn m c => .call (.attempt f fn m c)
  | .execute fn p m c => .call (.execute fn p m c)

/-! ### The numbers of opcode_table.json -/

/-- The operation whose numbered bits are `w`, every operand zero (R78, log 7): up to 8 bits, a CRC port code below 3
or else a command's `fn`; 16 bits, the frame whose first two bytes are `w[15:8]` and `w[7:0]`, of the shortest
length its format has, a request for the three request codes and a response otherwise. With 2 bits or fewer the
number is a CRC port code, the reserved one among them. -/
def tableWord (nbits w : Nat) : PortWord :=
  if nbits ≤ 2 then .crc (BitVec.ofNat 2 w) 0
  else if nbits ≤ 8 then
    if w < 3 then .crc (BitVec.ofNat 2 w) 0 else .cmd (BitVec.ofNat 8 w) 0 (Number.ofInt 0) []
  else
    let address : Byte := BitVec.ofNat 8 (w / 256)
    let fn : Byte := BitVec.ofNat 8 w
    if fn = fnWMulti then .tx [address, fn, 0, 0, 0, 0, 0, 0, 0]
    else if legalFn fn then .tx [address, fn, 0, 0, 0, 0, 0, 0]
    else .rx [address, fn, 0, 0, 0]

/-- The operation the decoder reads from `tableWord nbits w`. -/
def decodeTableWord (nbits w : Nat) : Option Instr :=
  match decode (tableWord nbits w) with
  | .ok i => some i
  | .error _ => none

end Sys2Proof
end

