-- ==== Sys2Proof/Machine/Flags.lean ====
section
/-! DEFINITION. The flags (R18) and the numeric codes of the status registers (R180, R21). -/

namespace Sys2Proof.Machine

/-- `BUSY = 1` iff `SEQ` is none of `IDLE`, `FATAL`; not a register (R18). -/
def State.busy (s : State) : Bool := s.seq ≠ .idle && s.seq ≠ .fatal

/-- The code a cause leaves in `LAST_FAULT` (R180). -/
def Cause.code : Cause → BitVec 4
  | .none => 0
  | .usageBadAddress => 1
  | .usageBadOperand => 2
  | .usageBadFunction => 3
  | .frameCrc => 4
  | .frameAddress => 5
  | .frameFunction => 6
  | .frameLength => 7
  | .deviceException => 8
  | .transportTimeout => 9
  | .transportError => 10

/-- The code of `FATAL_CAUSE` (R21). -/
def FatalCause.code : FatalCause → BitVec 2
  | .none => 0
  | .exhaustedRetries => 1
  | .transportFatal => 2

/-- What every acceptance does first: `DONE <- 0`, `USAGE <- 0`, `RESULT_LEN <- 0`, `FAILS <- 0` (R151). -/
def clearForCommand (s : State) : State :=
  { s with done := false, usage := false, resultLen := 0, fails := 0 }

end Sys2Proof.Machine
end

