-- ==== Sys2Proof/Machine/FrameDecode.lean ====
section
/-! DEFINITION. The frame decoder and validator (42_frame_decode.md). -/

namespace Sys2Proof.Machine

/-- `rxNeed(head, mode)` (R131); byte 0 of the head plays no part. -/
def rxNeed (h1 h2 : Byte) (mode : Mode) : Nat :=
  if bit7 h1 then 5
  else match mode with
    | .fixed8 => Config.fixedRspLen
    | .selfdesc => 5 + h2.toNat

/-- A complete received frame: as many bytes as its own head asks for (R131, R133). -/
def completeFrame (rx : List Byte) (mode : Mode) : Bool :=
  match rx with
  | _ :: h1 :: h2 :: _ => rx.length = rxNeed h1 h2 mode
  | _ => false

/-- `rx[i]`. In a complete frame for an `fn` with bit 7 clear every index a rule names is below the length (R133 to R135); an
absent byte is free (DESIGN CHOICE, log 17). -/
def byteAt (rx : List Byte) (i : Nat) : Byte := rx.getD i (Config.absentByte rx i)

/-- The result words: of a read response (R134), of a write acknowledgment (R135). -/
def resultWords (rx : List Byte) (mode : Mode) (count : Word) : List Word :=
  match mode with
  | .selfdesc => (List.range count.toNat).map fun i => u16be (byteAt rx (3 + 2 * i)) (byteAt rx (4 + 2 * i))
  | .fixed8 => [u16be (byteAt rx 2) (byteAt rx 3), u16be (byteAt rx 4) (byteAt rx 5)]

/-- `validate(rx, fn, mode, count)` with the device address as an argument: checks (a) to (d) in order (R133). -/
def validate (dev : Byte) (rx : List Byte) (fn : Byte) (mode : Mode) (count : Word) : Verdict :=
  if crc16 rx ≠ 0 then .frameFault .frameCrc
  else if byteAt rx 0 ≠ dev then .frameFault .frameAddress
  else if byteAt rx 1 ≠ fn then
    if bit7 (byteAt rx 1) then .deviceException (byteAt rx 2) else .frameFault .frameFunction
  else if mode = .selfdesc ∧ (byteAt rx 2).toNat ≠ 2 * count.toNat then .frameFault .frameLength
  else .ok (resultWords rx mode count)

/-- `excClass(code)` (R138). -/
def excClass (code : Byte) : ExcClass :=
  match code.toNat with
  | 1 => .illegalFunction
  | 2 => .illegalAddress
  | 3 => .illegalValue
  | 4 => .slaveFailure
  | 5 => .acknowledge
  | 6 => .busy
  | 7 => .negativeAcknowledge
  | 8 => .memoryParityError
  | 10 => .gatewayUnavailable
  | 11 => .gatewayTargetNotResponding
  | _ => .unknown

end Sys2Proof.Machine
end

