-- ==== Sys2Proof/Machine/Ops.lean ====
section
/-! DEFINITION. The named operations over the buffers and the registers; taking a fault (usage fault, failed attempt,
fatal state) and the way back, the retry, each once (60_exceptions.md). -/

namespace Sys2Proof.Machine

/-! ### Buffers -/

/-- The cell at address `a`. -/
def Memory.read {w : Nat} : Memory w → Nat → BitVec w
  | [], _ => Memory.blank
  | (k, v) :: m, a => if k = a then v else Memory.read m a

/-- The buffer with the cell at `a` set to `v`, in canonical form. -/
def Memory.write {w : Nat} : Memory w → Nat → BitVec w → Memory w
  | [], a, v => if v = Memory.blank then [] else [(a, v)]
  | (k, u) :: m, a, v =>
    if a < k then (if v = Memory.blank then (k, u) :: m else (a, v) :: (k, u) :: m)
    else if a = k then (if v = Memory.blank then m else (a, v) :: m)
    else (k, u) :: Memory.write m a v

/-- The `n` cells from address `a` on. -/
def Memory.readList {w : Nat} (m : Memory w) (a : Nat) : Nat → List (BitVec w)
  | 0 => []
  | n + 1 => Memory.read m a :: Memory.readList m (a + 1) n

/-- The buffer with the cells from `a` on set to the values, the first at `a`. -/
def Memory.writeList {w : Nat} (m : Memory w) (a : Nat) : List (BitVec w) → Memory w
  | [] => m
  | v :: vs => Memory.writeList (Memory.write m a v) (a + 1) vs

/-- Addresses from `lo` on, strictly rising and below `cap`, no cell equal to what an unlisted one reads as. -/
def Memory.wfFrom {w : Nat} (cap : Nat) : Nat → Memory w → Bool
  | _, [] => true
  | lo, (k, v) :: m => lo ≤ k && k < cap && v ≠ Memory.blank && Memory.wfFrom cap (k + 1) m

/-- The canonical form of a buffer of capacity `cap`. -/
def Memory.wf {w : Nat} (cap : Nat) (m : Memory w) : Bool := Memory.wfFrom cap 0 m

/-- `TXBUF[0:TXLEN]`, the request frame (R11). -/
def State.txFrame (s : State) : List Byte := Memory.readList s.txbuf 0 s.txlen

/-- `RXBUF[0:RXNEED]`, the response frame that `CHECK` validates (R157). -/
def State.rxFrame (s : State) : List Byte := Memory.readList s.rxbuf 0 s.rxneed

/-- `RESULT[0:RESULT_LEN]` (R14). -/
def State.resultList (s : State) : List Word := Memory.readList s.result 0 s.resultLen

/-- `RXBUF[RXLEN] <- b; RXLEN <- RXLEN + 1` (R12, R156). -/
def storeByte (b : Byte) (s : State) : State :=
  { s with rxbuf := Memory.write s.rxbuf s.rxlen b, rxlen := s.rxlen + 1 }

/-- `RXNEED <- rxNeed(RXBUF[0:3], mode)` (R156). -/
def setNeed (mode : Mode) (s : State) : State :=
  { s with rxneed := rxNeed (Memory.read s.rxbuf 1) (Memory.read s.rxbuf 2) mode }

/-- A successful attempt, in one step: `RESULT`, `RESULT_LEN`, `DONE <- 1`, `SEQ <- IDLE` (R157). -/
def completeCommand (words : List Word) (s : State) : State :=
  { s with result := Memory.writeList s.result 0 words, resultLen := words.length, done := true, seq := .idle }

/-! ### Faults -/

/-- A usage fault at acceptance (R151, R184): the flags cleared, `USAGE <- 1`, `LAST_FAULT <-` the cause; `SEQ` stays
`IDLE` and nothing else changes. -/
def usageFault (c : Cause) (s : State) : State :=
  { clearForCommand s with usage := true, lastFault := c }

/-- Entry to `FATAL` (R189, R165). -/
def enterFatal (c : FatalCause) (s : State) : State :=
  { s with seq := .fatal, fatal := true, fatalCause := c }

/-- The cause of a failure (R180). -/
def Failure.cause : Failure → Cause
  | .plain c => c
  | .exception _ => .deviceException

/-- Entry of a failed attempt (R186): `LAST_FAULT <- c`; for a device exception `EXC_CODE <- RXBUF[2]`;
`FAILS <- FAILS + 1`. Nothing else is saved. -/
def recordFailure (f : Failure) (s : State) : State :=
  match f with
  | .plain c => { s with lastFault := c, fails := s.fails + 1 }
  | .exception code => { s with lastFault := .deviceException, excCode := code, fails := s.fails + 1 }

/-- The way back from a failed attempt (R158, R187): with attempts left, the next attempt of the same request from
its beginning, at once; otherwise `FATAL`. -/
def retryOrFatal (s : State) : State :=
  if s.maxAttempts ≤ s.fails then enterFatal .exhaustedRetries s else { s with seq := .flush }

/-- A failed attempt: its entry, then the decision between the next attempt and `FATAL` (R186, R158). -/
def failAttempt (f : Failure) (s : State) : State := retryOrFatal (recordFailure f s)

/-- What a verdict other than `Ok` makes of the attempt (R133, R186). -/
def Verdict.result : Verdict → AttemptResult
  | .ok ws => .ok ws
  | .frameFault c => .failed (.plain c)
  | .deviceException code => .failed (.exception code)

end Sys2Proof.Machine
end

