-- ==== Sys2Proof/Machine/Operands.lean ====
section
/-! DEFINITION. Operand forms and checks of the command port (R70, R163, R164), and the acceptance of a request that
passed them (R151, R152). -/

namespace Sys2Proof.Machine

/-- `toWord(x)`: the fractional part removed, toward zero (R163). -/
def toWord (x : Number) : Int := x.num.tdiv (x.denPred + 1)

/-- A write value after the range check, as the 16-bit field (R70, R115). -/
def valueWord (x : Number) : Word := BitVec.ofInt 16 (toWord x)

/-- An address operand after the range check, as the 16-bit field (R70, R115). -/
def addressWord (a : Int) : Word := BitVec.ofInt 16 a

/-- Check 5: the value does not fit the 2-byte field (R164). -/
def valueOutOfRange (x : Number) : Bool := toWord x < 0 || 65535 < toWord x

/-- The usage checks in their order, the first that fails gives the cause (R164). `vals` holds the write values:
the one of `writeWord`, those of `writeWords`, none of `readWords`. -/
def usageCheck (fn : Byte) (a : Int) (vals : List Number) : Option Cause :=
  if !legalFn fn then some .usageBadFunction
  else if a < 0 then some .usageBadAddress
  else if 65535 < a then some .usageBadAddress
  else if fn = fnWMulti ∧ Config.maxWmCount < vals.length then some .usageBadOperand
  else if vals.any valueOutOfRange then some .usageBadOperand
  else none

/-- Acceptance of a request that passed its checks, in one step (R151, R152): flags cleared, `LAST_FAULT <- NONE`, the
latches and `TXBUF` written, `CRC` left as the build of the frame leaves it (R10, R103), `SEQ <- DELAY` for the first
write-class request since reset (R153) and `FLUSH` otherwise. -/
def startRequest (fn : Byte) (payload : List Byte) (mode : Mode) (count : Word) (s : State) : State :=
  { clearForCommand s with
    lastFault := .none
    reqFn := fn
    reqMode := mode
    reqCount := if mode = .selfdesc then count else s.reqCount
    txbuf := Memory.writeList s.txbuf 0 (requestFrame s.devAddr fn payload)
    txlen := (requestFrame s.devAddr fn payload).length
    crc := crcOfBuild (requestFrame s.devAddr fn payload)
    seq := if writeClass fn && !s.firstWriteDone then .delay else .flush }

/-- Command acceptance (R151): in `IDLE` the usage checks decide; in `FATAL` no command is accepted and nothing
changes; in any other phase the command waits and nothing changes. -/
def acceptCommand (fn : Byte) (a : Int) (vals : List Number) (payload : List Byte) (count : Word) (s : State) : State :=
  if s.seq = .idle then
    match usageCheck fn a vals with
    | some c => usageFault c s
    | none => startRequest fn payload (modeOf fn) count s
  else s

end Sys2Proof.Machine
end

