-- ==== Sys2Proof/Machine/Transport.lean ====
section
/-! DEFINITION. The transport boundary (20_memory.md section 3): what each call answers and what it leaves in the
input buffer. Every call takes one turn of the environment: the next one the state names, and otherwise a free one
(R25, R47, U11; log 3). -/

namespace Sys2Proof.Machine

/-- The environment's choice for the coming call. -/
def Transport.turn (tp : Transport) : Turn :=
  match tp.turns with
  | t :: _ => t
  | [] => Config.freeTurn tp.draws

/-- The transport with that choice used up. -/
def Transport.advance (tp : Transport) : Transport :=
  match tp.turns with
  | _ :: ts => { tp with turns := ts }
  | [] => { tp with draws := tp.draws + 1 }

/-- A call and its answer, written down. -/
def Transport.record (c : TCall) (tp : Transport) : Transport := { tp with bus := tp.bus ++ [c] }

/-- `T.flushInput()` (R45): what is buffered is discarded; the buffer then holds only bytes that arrive after the
call. The count it returns is recorded and ignored (R154). -/
def Transport.flushInput (tp : Transport) : Transport :=
  { Transport.record (.flushInput tp.inBuf.length) tp.advance with inBuf := tp.turn.arrivals }

/-- `T.send(s)` (R46, R49): the whole frame in one call, answered `Unit`, `Fault` or `FatalFault`. -/
def Transport.send (frame : List Byte) (tp : Transport) : Answer × Transport :=
  (tp.turn.answer,
    Transport.record (.send frame tp.turn.answer)
      { tp.advance with inBuf := tp.inBuf ++ tp.turn.arrivals })

/-- What `T.recvByte()` answers when the buffer then holds `bs` (R47, R49): the next byte, if the environment lets
it through and there is one; `Timeout`; or the fatal fault. -/
def recvAnswer (a : Answer) (bs : List Byte) : RecvAnswer :=
  match a, bs with
  | .ok, b :: _ => .byte b
  | .fatalFault, _ => .fatalFault
  | _, _ => .timeout

/-- The buffer after that answer: a byte delivered is removed (R47). -/
def restAfter (a : RecvAnswer) (bs : List Byte) : List Byte :=
  match a with
  | .byte _ => bs.tail
  | _ => bs

/-- `T.recvByte()` (R47): bytes may arrive, then the answer. -/
def Transport.recvByte (tp : Transport) : RecvAnswer × Transport :=
  let bs := tp.inBuf ++ tp.turn.arrivals
  let a := recvAnswer tp.turn.answer bs
  (a, Transport.record (.recvByte a) { tp.advance with inBuf := restAfter a bs })

/-- What `connect()` answers: `Unit` or `Fault` (R44). `FatalFault` is an answer of `T.send` and `T.recvByte` alone (R49), so
every choice of the environment other than success is a `Fault` here (log 29). -/
def connectAnswer (a : Answer) : Answer :=
  match a with
  | .ok => .ok
  | .fault | .fatalFault => .fault

/-- `connect()`, the host's call before the first command (R44, R212). -/
def Transport.connect (tp : Transport) : Answer × Transport :=
  (connectAnswer tp.turn.answer,
    Transport.record (.connect (connectAnswer tp.turn.answer))
      { tp.advance with inBuf := tp.inBuf ++ tp.turn.arrivals })

/-- `close()`, the host's call, never while `BUSY = 1` (R44, R218). It answers nothing and takes no turn; the bytes already
in the input buffer stay and none arrives, which the spec leaves open (DESIGN CHOICE, log 29). -/
def Transport.close (tp : Transport) : Transport := Transport.record .close tp

end Sys2Proof.Machine
end

