-- ==== Sys2Proof/Machine/Sequencer.lean ====
section
/-! DEFINITION. The transaction sequencer phase by phase (43_transaction.md section 2), and the arrival of a response
frame on the line. -/

namespace Sys2Proof.Machine

/-- Phase `DELAY` (R153): `WRITE_DELAY` elapses in one step of the untimed model (log 15). -/
def delayPhase (s : State) : State := { s with firstWriteDone := true, seq := .flush }

/-- Phase `FLUSH`, the start of every attempt (R154). -/
def flushPhase (s : State) : State := { s with rxlen := 0, tp := Transport.flushInput s.tp, seq := .send }

/-- What the answer of `T.send` makes of the attempt (R155, R165). -/
def afterSend (a : Answer) (s : State) : State :=
  match a with
  | .ok => { s with seq := .recvHead }
  | .fault => failAttempt (.plain .transportError) s
  | .fatalFault => enterFatal .transportFatal s

/-- Phase `SEND` (R155): one call `T.send(TXBUF[0:TXLEN])`. -/
def sendPhase (s : State) : State :=
  let r := Transport.send s.txFrame s.tp
  afterSend r.1 { s with tp := r.2 }

/-- The phase after a byte has been stored (R156): the head is complete at 3 bytes, the frame at `RXNEED`. -/
def afterStore (s : State) : State :=
  if s.seq = .recvHead then
    if s.rxlen = Config.headLen then { setNeed s.reqMode s with seq := .recvBody } else s
  else if s.rxlen = s.rxneed then { s with seq := .check }
  else s

/-- A byte in `RECV_HEAD` or `RECV_BODY` (R156). -/
def receiveByte (b : Byte) (s : State) : Result :=
  if s.rxlen < Config.rxbufMax then .next (afterStore (storeByte b s)) else .fault .bufferOverrun

/-- An answer of `T.recvByte` in `RECV_HEAD` or `RECV_BODY` (R156, R165). -/
def afterRecv (a : RecvAnswer) (s : State) : Result :=
  match a with
  | .byte b => receiveByte b s
  | .timeout => .next (failAttempt (.plain .transportTimeout) s)
  | .fatalFault => .next (enterFatal .transportFatal s)

/-- Phases `RECV_HEAD` and `RECV_BODY` (R156): one call `T.recvByte()`. -/
def recvPhase (s : State) : Result :=
  let r := Transport.recvByte s.tp
  afterRecv r.1 { s with tp := r.2 }

/-- The verdict on `RXBUF[0:RXNEED]` against the latched request (R157). -/
def State.verdict (s : State) : Verdict := validate s.devAddr s.rxFrame s.reqFn s.reqMode s.reqCount

/-- What the verdict makes of the attempt (R157, R158, R186). -/
def afterCheck (v : Verdict) (s : State) : State :=
  match v with
  | .ok words => completeCommand words s
  | .frameFault c => failAttempt (.plain c) s
  | .deviceException code => failAttempt (.exception code) s

/-- Phase `CHECK` (R157); `CRC` holds the CRC of the received frame afterwards (R10, R103). -/
def checkPhase (s : State) : State :=
  afterCheck s.verdict { s with crc := crc16 s.rxFrame }

/-- One step of the sequencer (R151 to R159). In `IDLE` and `FATAL` it does nothing of its own. -/
def tick (s : State) : Result :=
  match s.seq with
  | .idle => .next s
  | .delay => .next (delayPhase s)
  | .flush => .next (flushPhase s)
  | .send => .next (sendPhase s)
  | .recvHead => recvPhase s
  | .recvBody => recvPhase s
  | .check => .next (checkPhase s)
  | .fatal => .next s

/-! ### A frame arrives on the line -/

/-- The sequencer is collecting a response. -/
def State.receiving (s : State) : Bool := s.seq = .recvHead || s.seq = .recvBody

/-- The state with this input buffer. -/
def setInBuf (bs : List Byte) (s : State) : State := { s with tp := { s.tp with inBuf := bs } }

/-- The sequencer's call `T.recvByte()` that delivered `b`, written down. -/
def logByte (b : Byte) (s : State) : State := { s with tp := Transport.record (.recvByte (.byte b)) s.tp }

/-- A complete frame is checked at once. -/
def checkIfComplete (s : State) : State := if s.seq = .check then checkPhase s else s

/-- While the sequencer is collecting a response it takes the buffered bytes one `T.recvByte()` at a time (R47, R156),
and validates the frame when it is complete (R157); every other byte stays in the input buffer (R132). -/
def drain : List Byte → State → Result
  | [], s => .next (setInBuf [] s)
  | b :: bs, s =>
    if s.receiving then
      match receiveByte b (logByte b s) with
      | .next t => drain bs (checkIfComplete t)
      | .fault f => .fault f
      | .refused r => .refused r
    else .next (setInBuf (b :: bs) s)

/-- The line delivers the bytes of a frame (R24, R45, R47): they queue behind what is buffered, and a sequencer that is
waiting for a response takes them in time. -/
def lineDelivers (bytes : List Byte) (s : State) : Result := drain (s.tp.inBuf ++ bytes) s

end Sys2Proof.Machine
end

