-- ==== Sys2Proof/Machine/Exchange.lean ====
section
/-! DEFINITION. The sequencer as one loop: `attempt` (R166) and `execute` (R150). The bytes received are kept where
the phase form keeps them, in `RXBUF`, so that the two forms can be compared state by state. -/

namespace Sys2Proof.Machine

/-- `T.flushInput()` with `rx <- []` (R166). -/
def beginAttempt (s : State) : State := { s with rxlen := 0, tp := Transport.flushInput s.tp }

/-- One of the two receive loops of R166: `n` more bytes; `none` when all have come, else how the attempt ended. -/
def recvLoop : Nat → State → Option AttemptResult × State
  | 0, s => (none, s)
  | n + 1, s =>
    let r := Transport.recvByte s.tp
    match r.1 with
    | .byte b => recvLoop n (storeByte b { s with tp := r.2 })
    | .timeout => (some (.failed (.plain .transportTimeout)), { s with tp := r.2 })
    | .fatalFault => (some .fatal, { s with tp := r.2 })

/-- The end of an attempt: the verdict on the frame received (R133, R166), `CRC` left as the check leaves it (R103). -/
def judge (fn : Byte) (mode : Mode) (count : Word) (s : State) : AttemptResult × State :=
  ((validate s.devAddr s.rxFrame fn mode count).result, { s with crc := crc16 s.rxFrame })

/-- The body of the response and its validation, once the head is there (R166). -/
def attemptBody (fn : Byte) (mode : Mode) (count : Word) (s : State) : AttemptResult × State :=
  let s1 := setNeed mode s
  match recvLoop (s1.rxneed - Config.headLen) s1 with
  | (some r, s2) => (r, s2)
  | (none, s2) => judge fn mode count s2

/-- The receive half of an attempt: the head, then the body (R166). -/
def attemptReceive (fn : Byte) (mode : Mode) (count : Word) (s : State) : AttemptResult × State :=
  match recvLoop Config.headLen s with
  | (some r, s1) => (r, s1)
  | (none, s1) => attemptBody fn mode count s1

/-- `attempt(frame, fn, mode, count)` (R166). -/
def attempt (frame : List Byte) (fn : Byte) (mode : Mode) (count : Word) (s : State) : AttemptResult × State :=
  let s1 := beginAttempt s
  let r := Transport.send frame s1.tp
  let s2 := { s1 with tp := r.2 }
  match r.1 with
  | .fatalFault => (.fatal, s2)
  | .fault => (.failed (.plain .transportError), s2)
  | .ok => attemptReceive fn mode count s2

/-- The loop of `execute` (R150), at most `n` turns of it: attempts of the same request until one is `Ok`, the
transport is fatal, or `FAILS >= MAX_ATTEMPTS`. -/
def executeLoop (frame : List Byte) (fn : Byte) (mode : Mode) (count : Word) : Nat → State → State
  | 0, s => s
  | n + 1, s =>
    match attempt frame fn mode count s with
    | (.ok words, t) => completeCommand words t
    | (.fatal, t) => enterFatal .transportFatal t
    | (.failed f, t) =>
      let u := recordFailure f t
      if u.maxAttempts ≤ u.fails then enterFatal .exhaustedRetries u else executeLoop frame fn mode count n u

/-- The one-time delay before the first write-class request (R150, R153). -/
def takeDelay (s : State) : State := if s.seq = .delay then delayPhase s else s

/-- The state in which the loop of `execute` starts: the request accepted, its delay taken. -/
def prepareExecute (fn : Byte) (payload : List Byte) (mode : Mode) (count : Word) (s : State) : State :=
  takeDelay (startRequest fn payload mode count s)

/-- `execute(fn, payload, mode, count)` from `IDLE` to its end (R150). The loop takes at most `MAX_ATTEMPTS` turns,
and one when that is 0, which is no legal value (R22). -/
def execute (fn : Byte) (payload : List Byte) (mode : Mode) (count : Word) (s : State) : State :=
  executeLoop (requestFrame s.devAddr fn payload) fn mode count (s.maxAttempts + 1)
    (prepareExecute fn payload mode count s)

end Sys2Proof.Machine
end

