-- ==== Sys2Proof/Machine/Functions.lean ====
section
/-! DEFINITION. The meanings of the function rows. The pure ones return their value and change nothing else (R3, R95;
logs 9 and 10); `attempt` and `execute` are the sequencer's loop form (log 12). -/

namespace Sys2Proof.Machine

/-- The value goes to the caller. -/
def setRet (v : RetVal) (s : State) : State := { s with ret := v }

/-- `crc16(s)` (R95). -/
def execCrc16 (bs : List Byte) (s : State) : Result := .next (setRet (.word (crc16 bs)) s)

/-- `computeCrc(bytes)` (R97). -/
def execComputeCrc (bs : List Byte) (s : State) : Result := .next (setRet (.bytes (computeCrc bs)) s)

/-- `appendCrc(frame)` (R98). -/
def execAppendCrc (bs : List Byte) (s : State) : Result := .next (setRet (.bytes (appendCrc bs)) s)

/-- `isValid(frame)` (R99). -/
def execIsValid (bs : List Byte) (s : State) : Result := .next (setRet (.bool (isValid bs)) s)

/-- `buildFrame(fn, payload)` (R110), with the register `DEV_ADDR`. -/
def execBuildFrame (fn : Byte) (payload : List Byte) (s : State) : Result :=
  .next (setRet (.bytes (buildFrame s.devAddr fn payload)) s)

/-- `ENC.READ(start, count)` (R111). -/
def execEncRead (start count : Word) (s : State) : Result := .next (setRet (.bytes (encRead start count)) s)

/-- `ENC.WSINGLE(addr, value)` (R112). -/
def execEncWSingle (addr value : Word) (s : State) : Result := .next (setRet (.bytes (encWSingle addr value)) s)

/-- `ENC.WMULTI(start, values)` (R113). -/
def execEncWMulti (start : Word) (values : List Word) (s : State) : Result :=
  .next (setRet (.bytes (encWMulti start values)) s)

/-- `rxNeed(head, mode)` (R131). -/
def execRxNeed (_h0 h1 h2 : Byte) (mode : Mode) (s : State) : Result :=
  .next (setRet (.nat (rxNeed h1 h2 mode)) s)

/-- `validate(rx, fn, mode, count)` (R133), with the register `DEV_ADDR`. -/
def execValidate (rx : List Byte) (fn : Byte) (mode : Mode) (count : Word) (s : State) : Result :=
  .next (setRet (.verdict (validate s.devAddr rx fn mode count)) s)

/-- `excClass(code)` (R138). -/
def execExcClass (code : Byte) (s : State) : Result := .next (setRet (.excClass (excClass code)) s)

/-- `toWord(x)` (R163). -/
def execToWord (x : Number) (s : State) : Result := .next (setRet (.int (toWord x)) s)

/-- `attempt(frame, fn, mode, count)` (R166), for every `fn`. One exchange is outstanding at a time (R54, R213): while a command
is in progress it waits, and in `FATAL` nothing is done (R189; log 12). -/
def execAttempt (frame : List Byte) (fn : Byte) (mode : Mode) (count : Word) (s : State) : Result :=
  .next (if s.seq = .idle then
      setRet (.attempt (attempt frame fn mode count s).1) (attempt frame fn mode count s).2
    else s)

/-- What `execute` gives its caller: the words, or nothing, since after `FATAL` it does not return (R150, C2). -/
def executeRet (t : State) : RetVal := if t.done then .words t.resultList else .none

/-- `execute(fn, payload, mode, count)` (R150), to its end. While a command is in progress it waits, and in `FATAL` nothing
is done (log 12); an `fn` that is none of the three is the usage fault (R182). R150 has `mode` SELFDESC for 0x03 and FIXED8
for the others; called with another `mode`, it latches that one in `REQ_MODE` and runs with it, and latches `REQ_COUNT` where
`mode` is SELFDESC (DESIGN CHOICE, log 28). -/
def execExecute (fn : Byte) (payload : List Byte) (mode : Mode) (count : Word) (s : State) : Result :=
  .next (if s.seq = .idle then
      if legalFn fn then
        setRet (executeRet (execute fn payload mode count s)) (execute fn payload mode count s)
      else usageFault .usageBadFunction s
    else s)

end Sys2Proof.Machine
end

