-- ==== Sys2Proof/Machine/HostCommands.lean ====
section
/-! DEFINITION. The meanings of the command port rows (R71, R160 to R162, R73): each is the acceptance of the command
(R151). The exchange that follows is the sequencer's, phase by phase (`tick`). -/

namespace Sys2Proof.Machine

/-- `readWords(start, count)` (R160). -/
def execReadWords (start : Int) (count : Word) (s : State) : Result :=
  .next (acceptCommand fnRead start [] (encRead (addressWord start) count) count s)

/-- `writeWord(addr, value)` (R161). -/
def execWriteWord (addr : Int) (value : Number) (s : State) : Result :=
  .next (acceptCommand fnWSingle addr [value] (encWSingle (addressWord addr) (valueWord value)) 0 s)

/-- `writeWords(start, values)` (R162). -/
def execWriteWords (start : Int) (values : List Number) (s : State) : Result :=
  .next (acceptCommand fnWMulti start values (encWMulti (addressWord start) (values.map valueWord)) 0 s)

/-- A command whose `fn` is none of the three (R73, R164): the usage fault `USAGE_BAD_FUNCTION`; the operands play no
part. -/
def execCmdReserved (_fn : Byte) (_a : Int) (_b : Number) (_vals : List Number) (s : State) : Result :=
  .next (if s.seq = .idle then usageFault .usageBadFunction s else s)

end Sys2Proof.Machine
end

