-- ==== Sys2Proof/Machine/Wire.lean ====
section
/-! DEFINITION. The meanings of the wire rows: a request frame leaving the block (R155), a response frame reaching it
(R156). Log 11. -/

namespace Sys2Proof.Machine

/-- The block emits `frame` exactly when it is in phase `SEND` with `TXBUF[0:TXLEN]` equal to it: then this is the phase's
one call of `T.send` (R46, R155). In every other state nothing is emitted and nothing changes. -/
def emitFrame (frame : List Byte) (s : State) : State :=
  if s.seq = .send ∧ s.txFrame = frame then sendPhase s else s

/-- REQ.READ (R62). -/
def execReqRead (address : Byte) (start count crc : Word) (s : State) : Result :=
  .next (emitFrame (withCrc (twoFieldBody address fnRead start count) crc) s)

/-- REQ.WSINGLE (R63). -/
def execReqWSingle (address : Byte) (reg value crc : Word) (s : State) : Result :=
  .next (emitFrame (withCrc (twoFieldBody address fnWSingle reg value) crc) s)

/-- REQ.WMULTI (R64). -/
def execReqWMulti (address : Byte) (start : Word) (values : List Word) (crc : Word) (s : State) : Result :=
  .next (emitFrame (withCrc (wmultiBody address start values) crc) s)

/-- RSP.READ (R65). -/
def execRspRead (address : Byte) (data : List Byte) (crc : Word) (s : State) : Result :=
  lineDelivers (withCrc (rspReadBody address data) crc) s

/-- RSP.WSINGLE (R66). -/
def execRspWSingle (address : Byte) (reg value crc : Word) (s : State) : Result :=
  lineDelivers (withCrc (twoFieldBody address fnWSingle reg value) crc) s

/-- RSP.WMULTI (R67). -/
def execRspWMulti (address : Byte) (start count crc : Word) (s : State) : Result :=
  lineDelivers (withCrc (twoFieldBody address fnWMulti start count) crc) s

/-- RSP.EXC (R68). -/
def execRspExc (address function errorCode : Byte) (crc : Word) (s : State) : Result :=
  lineDelivers (withCrc (rspExcBody address function errorCode) crc) s

end Sys2Proof.Machine
end

