-- ==== Sys2Proof/Machine/Dispatch.lean ====
section
/-! DEFINITION. One arm per row of the opcode table. -/

namespace Sys2Proof.Machine

def exec (i : Instr) (s : State) : Host.Outcome State Fault Refusal :=
  match i with
  -- CRC port
  | .crcNop => Sys2Proof.Machine.execCrcNop s
  | .crcInit => Sys2Proof.Machine.execCrcInit s
  | .crcUpdate b => Sys2Proof.Machine.execCrcUpdate b s
  | .crcReserved => Sys2Proof.Machine.execCrcReserved s
  -- command port
  | .readWords start count => Sys2Proof.Machine.execReadWords start count s
  | .writeWord addr value => Sys2Proof.Machine.execWriteWord addr value s
  | .writeWords start values => Sys2Proof.Machine.execWriteWords start values s
  | .cmdReserved fn a b vals => Sys2Proof.Machine.execCmdReserved fn a b vals s
  -- wire formats
  | .reqRead address start count crc => Sys2Proof.Machine.execReqRead address start count crc s
  | .reqWSingle address reg value crc => Sys2Proof.Machine.execReqWSingle address reg value crc s
  | .reqWMulti address start values crc => Sys2Proof.Machine.execReqWMulti address start values crc s
  | .rspRead address data crc => Sys2Proof.Machine.execRspRead address data crc s
  | .rspWSingle address reg value crc => Sys2Proof.Machine.execRspWSingle address reg value crc s
  | .rspWMulti address start count crc => Sys2Proof.Machine.execRspWMulti address start count crc s
  | .rspExc address function errorCode crc => Sys2Proof.Machine.execRspExc address function errorCode crc s
  -- functions
  | .crc16 bs => Sys2Proof.Machine.execCrc16 bs s
  | .computeCrc bs => Sys2Proof.Machine.execComputeCrc bs s
  | .appendCrc bs => Sys2Proof.Machine.execAppendCrc bs s
  | .isValid bs => Sys2Proof.Machine.execIsValid bs s
  | .buildFrame fn payload => Sys2Proof.Machine.execBuildFrame fn payload s
  | .encRead start count => Sys2Proof.Machine.execEncRead start count s
  | .encWSingle addr value => Sys2Proof.Machine.execEncWSingle addr value s
  | .encWMulti start values => Sys2Proof.Machine.execEncWMulti start values s
  | .rxNeed h0 h1 h2 mode => Sys2Proof.Machine.execRxNeed h0 h1 h2 mode s
  | .validate rx fn mode count => Sys2Proof.Machine.execValidate rx fn mode count s
  | .excClass code => Sys2Proof.Machine.execExcClass code s
  | .toWord x => Sys2Proof.Machine.execToWord x s
  | .attempt frame fn mode count => Sys2Proof.Machine.execAttempt frame fn mode count s
  | .execute fn payload mode count => Sys2Proof.Machine.execExecute fn payload mode count s

end Sys2Proof.Machine
end

