-- ==== Sys2Proof/Machine/HostPort.lean ====
section
/-! DEFINITION. The outside's requests other than operations: reset (R210), configuration writes (R22, R216), register
reads (R14, R18), `connect` and `close` (R44); and which requests wait while a command is in progress. -/

namespace Sys2Proof.Machine

/-- A reset step (R210, R211): every register of the block takes its reset value, in any phase; the transport and the
requests still at the port are not touched. -/
def resetBlock (s : State) : State := { State.reset with tp := s.tp, port := s.port }

/-- A legal value of a configuration register (R22). -/
def legalConfig (r : ConfigReg) (v : Nat) : Bool :=
  match r with
  | .devAddr => v ≤ 255
  | .maxAttempts => 1 ≤ v
  | .rxTimeout => 1 ≤ v
  | .writeDelay => true

/-- The configuration register `r` set to `v`. -/
def setConfig (r : ConfigReg) (v : Nat) (s : State) : State :=
  match r with
  | .devAddr => { s with devAddr := BitVec.ofNat 8 v }
  | .maxAttempts => { s with maxAttempts := v }
  | .rxTimeout => { s with rxTimeout := v }
  | .writeDelay => { s with writeDelay := v }

/-- A configuration write (R22): only in `IDLE` (R216, U8), only a legal value (U9). -/
def writeConfig (r : ConfigReg) (v : Nat) (s : State) : Result :=
  if s.seq ≠ .idle then .refused .configNotIdle
  else if legalConfig r v then .next (setConfig r v s)
  else .refused .illegalConfig

/-- The content of a register as the host reads it (R10, R14, R17 to R22); codes are those of R180 and R21. -/
def regValue (r : HostReg) (s : State) : RetVal :=
  match r with
  | .crc => .word s.crc
  | .result => .words s.resultList
  | .resultLen => .nat s.resultLen
  | .busy => .bool s.busy
  | .done => .bool s.done
  | .usage => .bool s.usage
  | .fatal => .bool s.fatal
  | .fails => .nat s.fails
  | .lastFault => .nat s.lastFault.code.toNat
  | .excCode => .nat s.excCode.toNat
  | .fatalCause => .nat s.fatalCause.code.toNat
  | .devAddr => .nat s.devAddr.toNat
  | .maxAttempts => .nat s.maxAttempts
  | .rxTimeout => .nat s.rxTimeout
  | .writeDelay => .nat s.writeDelay

/-- A host read. `RESULT` with `DONE = 0` is refused (D29, U6). The configuration registers are read in every phase, where R22
leaves open whether they can be read outside `IDLE` (DESIGN CHOICE, log 30). -/
def readReg (r : HostReg) (s : State) : Result :=
  if r = .result ∧ s.done = false then .refused .resultNotReady else .next (setRet (regValue r s) s)

/-- The host's `connect()`: its answer goes to the host, the block is not involved (R44, R212). -/
def hostConnect (s : State) : State :=
  let r := Transport.connect s.tp
  { s with tp := r.2, ret := .answer r.1 }

/-- The host's `close()` (R44). -/
def hostClose (s : State) : State := { s with tp := Transport.close s.tp }

/-- The requests that wait while `BUSY = 1`: commands (R151), CRC port operations (R217), function calls (R54), `connect`
and `close` (R44, R218). Reset, register reads, configuration writes and frames on the wire do not. -/
def PortItem.waits : PortItem → Bool
  | .op (.tx _) | .op (.rx _) => false
  | .op (.crc _ _) | .op (.cmd _ _ _ _) | .op (.call _) => true
  | .connect | .close => true
  | .reset | .writeConfig _ _ | .read _ => false

/-- The bytes of a frame that is no row of the table. On the line they are received like any others (R43, R47), and what comes
of them is the decoder's (R73, R133); to be emitted they would have to be `TXBUF[0:TXLEN]` (R155). Every other form
decodes (log 13). -/
def unlistedFrame (w : PortWord) (s : State) : Result :=
  match w with
  | .rx frame => lineDelivers frame s
  | .tx frame => .next (emitFrame frame s)
  | .crc _ _ | .cmd _ _ _ _ | .call _ => .next s

/-- A request taken from the port. -/
def takeItem (item : PortItem) (s : State) : Result :=
  match item with
  | .op w =>
    match decode w with
    | .ok i => exec i s
    | .error _ => unlistedFrame w s
  | .reset => .next (resetBlock s)
  | .writeConfig r v => writeConfig r v s
  | .read r => readReg r s
  | .connect => .next (hostConnect s)
  | .close => .next (hostClose s)

/-- One step: the oldest request at the port is taken, unless it has to wait for a command in progress; otherwise the
sequencer makes its next step. -/
def stepState (s : State) : Result :=
  match s.port with
  | [] => tick s
  | item :: rest => if s.busy && item.waits then tick s else takeItem item { s with port := rest }

/-- The state with the operation numbered `w` (R78) as the oldest request, in a phase in which it does not wait. -/
def presentWord (nbits w : Nat) (s : State) : State :=
  { s with
    port := .op (tableWord nbits w) :: s.port
    seq := if s.busy && (PortItem.op (tableWord nbits w)).waits then .idle else s.seq }

end Sys2Proof.Machine
end

