-- ==== Sys2Proof/WellFormed.lean ====
section
/-! DEFINITION. The operations whose operands lie in the domains the spec states for them. -/

namespace Sys2Proof

/-- The operand domains: a reserved command has another `fn` (R73); an emitted request carries its own CRC (R62 to
R64) and at most 127 values; a read response's `byteCount` is one byte (R65); an exception response has bit 7 of
its function byte set (R68); a payload has at most 259 bytes (R110); `validate` and `attempt` get an `fn` with bit 7 clear, as
every `REQ_FN` has it, and `validate` a complete frame (R133); `execute` gets one of the three requests (R150). -/
def Instr.wf : Instr → Bool
  | .cmdReserved fn _ _ _ => !legalFn fn
  | .reqRead address start count crc => crc = Machine.crc16 (twoFieldBody address fnRead start count)
  | .reqWSingle address reg value crc => crc = Machine.crc16 (twoFieldBody address fnWSingle reg value)
  | .reqWMulti address start values crc =>
    values.length ≤ Config.maxWmCount && crc = Machine.crc16 (wmultiBody address start values)
  | .rspRead _ data _ => data.length ≤ 255
  | .rspExc _ fn _ _ => Machine.bit7 fn
  | .buildFrame _ payload => payload.length ≤ 259
  | .encWMulti _ values => values.length ≤ Config.maxWmCount
  | .validate rx fn mode _ => Machine.completeFrame rx mode && !Machine.bit7 fn
  | .attempt _ fn _ _ => !Machine.bit7 fn
  | .execute fn payload mode _ => payload.length ≤ 259 && legalFn fn && mode = modeOf fn
  | .crcNop | .crcInit | .crcUpdate _ | .crcReserved => true
  | .readWords _ _ | .writeWord _ _ | .writeWords _ _ => true
  | .rspWSingle _ _ _ _ | .rspWMulti _ _ _ _ => true
  | .crc16 _ | .computeCrc _ | .appendCrc _ | .isValid _ => true
  | .encRead _ _ | .encWSingle _ _ | .rxNeed _ _ _ _ | .excClass _ | .toWord _ => true

end Sys2Proof
end

