-- ==== Sys2Proof/Safety.lean ====
section
/-! DEFINITION. What a legal state of the block is: the invariant that every step keeps and that holds after reset;
how a command ends. -/

namespace Sys2Proof.Machine

/-- `TXBUF[0:TXLEN]` is a request row's frame, complete with its CRC, from `DEV_ADDR` and for `REQ_FN` (R60 to R64,
R152). -/
def State.holdsRequest (s : State) : Bool :=
  match decodeRequest s.txFrame with
  | .ok i => i.wf && byteAt s.txFrame 0 = s.devAddr && byteAt s.txFrame 1 = s.reqFn
  | .error _ => false

/-- The legal states. -/
structure State.Inv (s : State) : Prop where
  /-- The buffers are canonical and inside their capacities (R11, R12, R14). -/
  txbuf_wf : Memory.wf Config.txbufMax s.txbuf = true
  rxbuf_wf : Memory.wf Config.rxbufMax s.rxbuf = true
  result_wf : Memory.wf Config.resultMax s.result = true
  /-- The lengths are in their ranges (R11, R12, R14). -/
  txlen_le : s.txlen ≤ Config.txbufMax
  rxlen_le : s.rxlen ≤ Config.rxbufMax
  resultLen_le : s.resultLen ≤ Config.resultMax
  /-- `MAX_ATTEMPTS` and `RX_TIMEOUT` hold legal values (R22). -/
  maxAttempts_pos : 1 ≤ s.maxAttempts
  rxTimeout_pos : 1 ≤ s.rxTimeout
  /-- The flag and the cause `FATAL` are set exactly in the phase `FATAL` (R18, R21). -/
  fatal_iff : s.fatal = true ↔ s.seq = .fatal
  fatalCause_iff : s.fatalCause ≠ .none ↔ s.seq = .fatal
  /-- Exhausted retries: as many failed attempts as `MAX_ATTEMPTS` (R158). -/
  exhausted : s.fatalCause = .exhaustedRetries → s.fails = s.maxAttempts
  /-- From acceptance to the end of a command, and in `FATAL`, there is no result (R14, R188, R189). -/
  unfinished : s.seq ≠ .idle → s.done = false ∧ s.usage = false ∧ s.resultLen = 0
  /-- `DONE` and `USAGE` exclude each other (R18). -/
  done_usage : s.done = true → s.usage = false
  /-- While a command is in progress an attempt is left (R158). -/
  busy_fails : s.busy = true → s.fails < s.maxAttempts
  /-- While a command is in progress the latches and `TXBUF` hold one of the three requests (R151, R152). -/
  busy_fn : s.busy = true → legalFn s.reqFn = true ∧ s.reqMode = modeOf s.reqFn
  busy_frame : s.busy = true → s.holdsRequest = true
  /-- `DELAY` belongs to the first write-class request, and no write-class request leaves before it (R153). -/
  delay_first : s.seq = .delay → writeClass s.reqFn = true ∧ s.firstWriteDone = false
  write_delayed : s.busy = true → s.seq ≠ .delay → writeClass s.reqFn = true → s.firstWriteDone = true
  /-- An attempt sends with the receive buffer emptied (R154), and fills it from the start (R156). -/
  send_len : s.seq = .send → s.rxlen = 0
  head_len : s.seq = .recvHead → s.rxlen < Config.headLen
  body_len : s.seq = .recvBody → Config.headLen ≤ s.rxlen ∧ s.rxlen < s.rxneed
  check_len : s.seq = .check → s.rxlen = s.rxneed
  need : s.seq = .recvBody ∨ s.seq = .check →
    s.rxneed = rxNeed (Memory.read s.rxbuf 1) (Memory.read s.rxbuf 2) s.reqMode

/-- Exactly one of `DONE`, `USAGE`, `FATAL` is 1: a command has ended (R18, R167). -/
def State.ended (s : State) : Bool :=
  (s.done && !s.usage && !s.fatal) || (!s.done && s.usage && !s.fatal) || (!s.done && !s.usage && s.fatal)

end Sys2Proof.Machine
end

