-- ==== Sys2Proof/Certificates/Slice0/Obligations.lean ====
section
/-! DEFINITION. The statements for the provers. Each docstring names the rule of spec/ it formalises; the English text
stands in OBLIGATIONS.json. -/

open Sys2Proof Sys2Proof.Machine

/-! ### Words used by the statements -/

namespace Sys2Proof.Claims

/-- `s` with bit `k % 8` of byte `k / 8` flipped. -/
def flipBit (s : List Byte) (k : Nat) : List Byte :=
  s.set (k / 8) (byteAt s (k / 8) ^^^ ((1 : Byte) <<< (k % 8)))

/-- How often `frame` was handed to `T.send`. -/
def sendsOf (frame : List Byte) (bus : List TCall) : Nat :=
  bus.countP fun c => match c with
    | .send f _ => f = frame
    | _ => false

/-- How often anything was handed to `T.send`. -/
def sends (bus : List TCall) : Nat :=
  bus.countP fun c => match c with
    | .send _ _ => true
    | _ => false

/-- How often `T.flushInput` was called. -/
def flushes (bus : List TCall) : Nat :=
  bus.countP fun c => match c with
    | .flushInput _ => true
    | _ => false

/-- The oldest request at the port is not the reset input. -/
def noReset (s : State) : Prop := s.port.head? ≠ some .reset

/-- The state a usage fault with cause `c` leaves (R151, R184). -/
def faulted (c : Cause) (s : State) : State :=
  { s with done := false, usage := true, resultLen := 0, fails := 0, lastFault := c }

/-- An address operand that fits the 2-byte field (R164). -/
def goodAddress (a : Int) : Prop := 0 ≤ a ∧ a ≤ 65535

/-- A write value that fits the 2-byte field after truncation toward zero (R163, R164). -/
def goodValue (x : Number) : Prop :=
  0 ≤ x.num.tdiv (x.denPred + 1) ∧ x.num.tdiv (x.denPred + 1) ≤ 65535

/-- The two bytes of a 16-bit payload field, high byte first (R40). -/
def high (w : Word) : Byte := (w >>> 8).setWidth 8

/-- See `high`. -/
def low (w : Word) : Byte := w.setWidth 8

/-- The phase after a failed attempt that leaves the counter at `n` (R158). -/
def phaseAfterFailure (s : State) (n : Nat) : Phase := if s.maxAttempts ≤ n then .fatal else .flush

/-- `t` is `s` after a failed attempt with cause `c`, but for the transport and `CRC`: `LAST_FAULT`, `FAILS`, and either
the next attempt or `FATAL` (R186, R158). -/
def FailedWith (c : Cause) (s t : State) : Prop :=
  t = { s with
    lastFault := c
    fails := s.fails + 1
    seq := phaseAfterFailure s (s.fails + 1)
    fatal := if s.maxAttempts ≤ s.fails + 1 then true else s.fatal
    fatalCause := if s.maxAttempts ≤ s.fails + 1 then .exhaustedRetries else s.fatalCause
    tp := t.tp
    crc := t.crc }

/-- `t` is `s` after the transport's fatal fault (R165), but for the transport. -/
def TransportFatal (s t : State) : Prop :=
  t = { s with seq := .fatal, fatal := true, fatalCause := .transportFatal, tp := t.tp }

/-- The environment of one clean exchange: the flush finds nothing new, the send is accepted, the response `rx` arrives
and every byte of it is let through in time. -/
def cleanExchange (rx : List Byte) : List Turn :=
  ⟨[], .ok⟩ :: ⟨rx, .ok⟩ :: List.replicate rx.length ⟨[], .ok⟩

/-- `pre` is the beginning of a response and not yet all of it: the head is not complete, or fewer bytes than the head asks
for (R131, R166). -/
def needsMore (pre : List Byte) (m : Mode) : Prop :=
  pre.length < 3 ∨ ∃ h1 h2 : Byte, pre[1]? = some h1 ∧ pre[2]? = some h2 ∧
    pre.length < (if h1.getLsbD 7 then 5 else if m = .fixed8 then 8 else 5 + h2.toNat)

/-- The byte at an index, and the free value where there is none (log 17). -/
def byteOrFree (rx : List Byte) (i : Nat) : Byte := rx[i]?.getD (Config.absentByte rx i)

/-- A state awaiting the first byte of a response, with nothing buffered. -/
def awaiting (s : State) : Prop := s.Inv ∧ s.seq = .recvHead ∧ s.rxlen = 0 ∧ s.tp.inBuf = []

end Sys2Proof.Claims

open Sys2Proof.Claims

/-! ### Encoding and decoding -/

/-- R71, R72, R62 to R68, R76: decoding what the encoder writes gives the operation back, for every well-formed one. -/
def Obligations.DecodeOfEncode : Prop :=
  ∀ i : Instr, i.wf = true → decode (encode i) = .ok i

/-- R62 to R68: a frame that decodes is exactly the bytes the encoder writes for what it decodes to; no byte of a frame is
dropped or read twice. -/
def Obligations.FramesAreLossless : Prop :=
  ∀ (frame : List Byte) (i : Instr),
    (decode (.tx frame) = .ok i → encode i = .tx frame) ∧ (decode (.rx frame) = .ok i → encode i = .rx frame)

/-- R62, R64, R65, R68, R71, R72: words of the spec's examples and the operations they stand for. -/
def Obligations.SpecExamplesDecode : Prop :=
  decode (.crc 0b10 0x06) = .ok (.crcUpdate 0x06) ∧
  decode (.cmd 0x03 8 (Number.ofInt 2) []) = .ok (.readWords 8 2) ∧
  decode (.cmd 0x04 0 (Number.ofInt 1) []) = .ok (.cmdReserved 0x04 0 (Number.ofInt 1) []) ∧
  decode (.tx [0x01, 0x03, 0x00, 0x08, 0x00, 0x02, 0x45, 0xC9]) = .ok (.reqRead 0x01 8 2 0xC945) ∧
  decode (.tx [0x01, 0x10, 0x00, 0x12, 0x00, 0x01, 0x02, 0x00, 0x01, 0x64, 0xE2]) =
    .ok (.reqWMulti 0x01 18 [1] 0xE264) ∧
  decode (.rx [0x01, 0x83, 0x02, 0xC0, 0xF1]) = .ok (.rspExc 0x01 0x83 0x02 0xF1C0) ∧
  decode (.rx [0x01, 0x03, 0x02, 0x00, 0x64, 0xB9, 0xAF]) = .ok (.rspRead 0x01 [0x00, 0x64] 0xAFB9)

/-! ### The step -/

/-- The step runs the decoded operation: when the oldest request decodes and does not have to wait, the step is `exec` of
it on the state without that request. The port as a queue, one request a step, oldest first, and which requests wait are
the model's (logs 5 and 6). -/
def Obligations.StepRunsDecoded : Prop :=
  ∀ (s : State) (w : PortWord) (rest : List PortItem) (i : Instr),
    s.port = .op w :: rest → decode w = .ok i → (s.busy = false ∨ (PortItem.op w).waits = false) →
    step s = exec i { s with port := rest }

/-- R151, R217, R54: while a command is in progress (or nothing is presented) the step is the sequencer's, and the
commands, CRC operations and calls at the port stay there. -/
def Obligations.StepIsSequencer : Prop :=
  ∀ s : State,
    (s.port = [] ∨ (s.busy = true ∧ ∃ item rest, s.port = item :: rest ∧ item.waits = true)) →
    step s = tick s ∧ ∀ t, step s = .next t → t.port = s.port

/-! ### The CRC unit -/

/-- R91, R92, R93: the three CRC port operations, their codes, and the frame: only `CRC` changes. -/
def Obligations.CrcPortOperations : Prop :=
  ∀ (s : State) (b : Byte),
    decode (.crc 0b00 b) = .ok .crcNop ∧ decode (.crc 0b01 b) = .ok .crcInit ∧
    decode (.crc 0b10 b) = .ok (.crcUpdate b) ∧
    exec .crcNop s = .next s ∧
    exec .crcInit s = .next { s with crc := 0xFFFF } ∧
    exec (.crcUpdate b) s = .next { s with
      crc := (fun c : Word => if c.getLsbD 0 then (c >>> 1) ^^^ 0xA001 else c >>> 1)^[8] (s.crc ^^^ b.setWidth 16) }

/-- R73, U2: `crc_op = 0b11` is refused in every state. -/
def Obligations.CrcReservedRefused : Prop :=
  ∀ (s : State) (b : Byte), decode (.crc 0b11 b) = .ok .crcReserved ∧ exec .crcReserved s = .refused .reservedCrcOp

/-- R94: the table form on 16 bits and on the two accumulator bytes computes `crcStep`, with the tables the spec prints; the
properties that R96 notes of them. -/
def Obligations.CrcTableForm : Prop :=
  t16Table.length = 256 ∧
  (∀ i : Byte, t16 i = crcStep 0 i ∧ tabL i = low (t16 i) ∧ tabH i = high (t16 i)) ∧
  (∀ i : Byte, tabL i ∈ ([0x00, 0x01, 0x40, 0x41, 0x80, 0x81, 0xC0, 0xC1] : List Byte)) ∧
  (∀ i j : Byte, tabH i = tabH j → i = j) ∧ (∀ i : Byte, tabH i = 0 ↔ i = 0) ∧
  ∀ (c : Word) (b : Byte),
    crcStep c b = (c >>> 8) ^^^ t16 (low c ^^^ b) ∧
    low (crcStep c b) = high c ^^^ tabL (low c ^^^ b) ∧ high (crcStep c b) = tabH (low c ^^^ b)

/-- R100: the residue of a complete frame is zero, and conversely a sequence with residue zero ends in the CRC of what
precedes, low byte first. -/
def Obligations.ZeroResidue : Prop :=
  (∀ d : List Byte, crc16 (d ++ [low (crc16 d), high (crc16 d)]) = 0) ∧
  ∀ (d : List Byte) (x y : Byte), crc16 (d ++ [x, y]) = 0 → x = low (crc16 d) ∧ y = high (crc16 d)

/-- R101: flipping any single bit of a frame with its CRC is detected. -/
def Obligations.SingleBitErrorDetected : Prop :=
  ∀ (f : List Byte) (k : Nat), k < 8 * (appendCrc f).length → isValid (flipBit (appendCrc f) k) = false

/-- R95, R97, R98: the CRC functions return the fold from 0xFFFF, its two bytes low byte first, and the frame with them
appended; they change nothing else. Appending the CRC twice appends two zero bytes the second time. -/
def Obligations.CrcFunctionsReturn : Prop :=
  ∀ (s : State) (bs cs : List Byte),
    exec (.crc16 bs) s = .next { s with ret := .word (bs.foldl crcStep 0xFFFF) } ∧
    (bs ++ cs).foldl crcStep 0xFFFF = cs.foldl crcStep (bs.foldl crcStep 0xFFFF) ∧
    exec (.computeCrc bs) s = .next { s with
      ret := .bytes [low (bs.foldl crcStep 0xFFFF), high (bs.foldl crcStep 0xFFFF)] } ∧
    exec (.appendCrc bs) s = .next { s with
      ret := .bytes (bs ++ [low (bs.foldl crcStep 0xFFFF), high (bs.foldl crcStep 0xFFFF)]) } ∧
    appendCrc (appendCrc bs) = appendCrc bs ++ [0x00, 0x00]

/-- R99: `isValid` is true iff the CRC of the whole frame is zero; its corner cases. -/
def Obligations.IsValidReturns : Prop :=
  (∀ (s : State) (f : List Byte),
    exec (.isValid f) s = .next { s with ret := .bool (decide (f.foldl crcStep 0xFFFF = 0)) }) ∧
  isValid [] = false ∧ (∀ b : Byte, isValid [b] = false) ∧
  (∀ x y : Byte, isValid [x, y] = true ↔ x = 0xFF ∧ y = 0xFF) ∧
  ∀ (d : List Byte) (x y : Byte), isValid (d ++ [x, y]) = true ↔ [x, y] = computeCrc d

/-! ### The frame encoder -/

/-- R110: `buildFrame` puts the register `DEV_ADDR` first and the CRC last; the result is valid and 4 bytes longer than the
payload. -/
def Obligations.BuildFrameReturns : Prop :=
  ∀ (s : State) (fn : Byte) (p : List Byte), p.length ≤ 259 →
    ∃ f : List Byte,
      exec (.buildFrame fn p) s = .next { s with ret := .bytes f } ∧
      f = s.devAddr :: fn :: p ++ [low (crc16 (s.devAddr :: fn :: p)), high (crc16 (s.devAddr :: fn :: p))] ∧
      f.length = p.length + 4 ∧ isValid f = true

/-- R111, R112, R113: the three payloads, high byte first. -/
def Obligations.EncoderPayloads : Prop :=
  ∀ (s : State) (x y : Word) (vs : List Word),
    exec (.encRead x y) s = .next { s with ret := .bytes [high x, low x, high y, low y] } ∧
    exec (.encWSingle x y) s = .next { s with ret := .bytes [high x, low x, high y, low y] } ∧
    (vs.length ≤ 127 →
      exec (.encWMulti x vs) s = .next { s with
        ret := .bytes ([high x, low x, 0, BitVec.ofNat 8 vs.length, BitVec.ofNat 8 (2 * vs.length)] ++
          vs.flatMap fun v => [high v, low v]) })

/-- Operands outside the domains that R110, R113 and R133 state: the operation runs, and the one value the spec does not
state is free, the frame, the payload, the bytes a frame does not have (the model's choice, log 17). -/
def Obligations.OutsideDomainRuns : Prop :=
  ∀ (s : State) (fn : Byte) (p rx : List Byte) (x k : Word) (vs : List Word) (m : Mode),
    (259 < p.length →
      exec (.buildFrame fn p) s = .next { s with ret := .bytes (Config.unstatedFrame s.devAddr fn p) }) ∧
    (127 < vs.length → exec (.encWMulti x vs) s = .next { s with ret := .bytes (Config.unstatedPayload x vs) }) ∧
    ∃ v : Verdict, exec (.validate rx fn m k) s = .next { s with ret := .verdict v } ∧
      (∀ code, v = .deviceException code → code = byteOrFree rx 2) ∧
      (∀ ws, v = .ok ws → m = .selfdesc → ws = (List.range k.toNat).map fun i =>
        BitVec.ofNat 16 ((byteOrFree rx (3 + 2 * i)).toNat * 256 + (byteOrFree rx (4 + 2 * i)).toNat)) ∧
      (∀ ws, v = .ok ws → m = .fixed8 → ws =
        [BitVec.ofNat 16 ((byteOrFree rx 2).toNat * 256 + (byteOrFree rx 3).toNat),
          BitVec.ofNat 16 ((byteOrFree rx 4).toNat * 256 + (byteOrFree rx 5).toNat)])

/-! ### The frame decoder -/

/-- R131: the length of a response from its head, between 5 and 260; the address byte plays no part. -/
def Obligations.RxNeedReturns : Prop :=
  ∀ (s : State) (h0 h1 h2 : Byte) (m : Mode),
    ∃ n : Nat, exec (.rxNeed h0 h1 h2 m) s = .next { s with ret := .nat n } ∧
      n = (if h1.getLsbD 7 then 5 else if m = .fixed8 then 8 else 5 + h2.toNat) ∧ 5 ≤ n ∧ n ≤ 260

/-- R133: the four checks of `validate` in their order, on every byte sequence and for every `fn`. A sequence whose CRC is
zero has its first two bytes; a clause that reads the third takes it as given. R133 takes a complete frame and a request's
`fn`: that `validate` runs beyond those, with a free value for a byte the frame does not have, is the model's choice
(log 17). -/
def Obligations.ValidateInOrder : Prop :=
  ∀ (s : State) (rx : List Byte) (fn : Byte) (m : Mode) (k : Word),
    ∃ v : Verdict, exec (.validate rx fn m k) s = .next { s with ret := .verdict v } ∧
      (crc16 rx ≠ 0 → v = .frameFault .frameCrc) ∧
      (crc16 rx = 0 → ∃ x0 x1 : Byte, rx[0]? = some x0 ∧ rx[1]? = some x1 ∧
        (x0 ≠ s.devAddr → v = .frameFault .frameAddress) ∧
        (x0 = s.devAddr → x1 ≠ fn → x1.getLsbD 7 = false → v = .frameFault .frameFunction) ∧
        (x0 = s.devAddr → x1 = fn → m = .fixed8 → v = .ok (resultWords rx m k)) ∧
        ∀ x2 : Byte, rx[2]? = some x2 →
          (x0 = s.devAddr → x1 ≠ fn → x1.getLsbD 7 = true → v = .deviceException x2) ∧
          (x0 = s.devAddr → x1 = fn → m = .selfdesc → x2.toNat ≠ 2 * k.toNat → v = .frameFault .frameLength) ∧
          (x0 = s.devAddr → x1 = fn → m = .selfdesc → x2.toNat = 2 * k.toNat → v = .ok (resultWords rx m k)))

/-- R134, R135: the result words of a frame that passed: of a read response exactly `count`, word `i` from the bytes at
`3 + 2i` and `4 + 2i` of a frame of `5 + 2 * count` bytes; of an acknowledgment its two echoed fields. -/
def Obligations.ResultWords : Prop :=
  ∀ (dev : Byte) (rx : List Byte) (fn : Byte) (m : Mode) (k : Word) (ws : List Word),
    completeFrame rx m = true → fn.getLsbD 7 = false → validate dev rx fn m k = .ok ws →
    (m = .selfdesc → rx.length = 5 + 2 * k.toNat ∧ ws.length = k.toNat ∧
      ∀ i, i < k.toNat → ∃ x y, rx[3 + 2 * i]? = some x ∧ rx[4 + 2 * i]? = some y ∧
        ws[i]? = some (BitVec.ofNat 16 (x.toNat * 256 + y.toNat))) ∧
    (m = .fixed8 → ∃ x2 x3 x4 x5, rx[2]? = some x2 ∧ rx[3]? = some x3 ∧ rx[4]? = some x4 ∧ rx[5]? = some x5 ∧
      ws = [BitVec.ofNat 16 (x2.toNat * 256 + x3.toNat), BitVec.ofNat 16 (x4.toNat * 256 + x5.toNat)])

/-- R136: a read of 128 or more words never succeeds: it is not rejected up front, check (d) fails on every response, and the
exchange ends in `FATAL`. -/
def Obligations.CountOver127IsFatal : Prop :=
  ∀ (s : State) (k : Word), s.Inv → s.seq = .idle → 128 ≤ k.toNat →
    (∀ (rx : List Byte) (ws : List Word), validate s.devAddr rx 0x03 .selfdesc k ≠ .ok ws) ∧
    (∀ (a : Word), ∃ t, exec (.execute 0x03 (encRead a k) .selfdesc k) s = .next t ∧
      t.seq = .fatal ∧ t.fatal = true ∧ t.done = false ∧ t.resultLen = 0) ∧
    ∀ (a : Int), goodAddress a → ∃ t, exec (.readWords a k) s = .next t ∧ t.usage = false ∧ t.seq = .flush

/-- R138: the classes of the exception codes. -/
def Obligations.ExcClassTable : Prop :=
  ∀ (s : State) (code : Byte), ∃ c : ExcClass, exec (.excClass code) s = .next { s with ret := .excClass c } ∧
    (code = 0x01 → c = .illegalFunction) ∧ (code = 0x02 → c = .illegalAddress) ∧
    (code = 0x03 → c = .illegalValue) ∧ (code = 0x04 → c = .slaveFailure) ∧
    (code = 0x05 → c = .acknowledge) ∧ (code = 0x06 → c = .busy) ∧
    (code = 0x07 → c = .negativeAcknowledge) ∧ (code = 0x08 → c = .memoryParityError) ∧
    (code = 0x0A → c = .gatewayUnavailable) ∧ (code = 0x0B → c = .gatewayTargetNotResponding) ∧
    (code ∉ ([1, 2, 3, 4, 5, 6, 7, 8, 0x0A, 0x0B] : List Byte) → c = .unknown)

/-! ### Operands and commands -/

/-- R163: `toWord` removes the fractional part, toward zero; an integer is unchanged. -/
def Obligations.ToWordTruncates : Prop :=
  ∀ (s : State) (x : Number), ∃ k : Int, exec (.toWord x) s = .next { s with ret := .int k } ∧
    (0 ≤ x.num → k * (x.denPred + 1) ≤ x.num ∧ x.num < (k + 1) * (x.denPred + 1)) ∧
    (x.num ≤ 0 → x.num ≤ k * (x.denPred + 1) ∧ (k - 1) * (x.denPred + 1) < x.num) ∧
    (x.denPred = 0 → k = x.num)

/-- R164, R184: in `IDLE`, the first usage check that fails gives the cause; nothing is sent and only the flags,
`RESULT_LEN`, `FAILS` and `LAST_FAULT` change. -/
def Obligations.UsageFaults : Prop :=
  ∀ (s : State), s.seq = .idle → ∀ (fn : Byte) (a : Int) (x : Number) (k : Word) (xs : List Number),
    (fn ≠ 0x03 → fn ≠ 0x06 → fn ≠ 0x10 →
      exec (.cmdReserved fn a x xs) s = .next (faulted .usageBadFunction s)) ∧
    (¬ goodAddress a →
      exec (.readWords a k) s = .next (faulted .usageBadAddress s) ∧
      exec (.writeWord a x) s = .next (faulted .usageBadAddress s) ∧
      exec (.writeWords a xs) s = .next (faulted .usageBadAddress s)) ∧
    (goodAddress a → ¬ goodValue x → exec (.writeWord a x) s = .next (faulted .usageBadOperand s)) ∧
    (goodAddress a → (127 < xs.length ∨ ∃ v ∈ xs, ¬ goodValue v) →
      exec (.writeWords a xs) s = .next (faulted .usageBadOperand s))

/-- R62, with R151, R152, R160: `readWords` accepted in `IDLE`: the latches, `SEQ <- FLUSH`, and `TXBUF` holds the RQ-R
frame; nothing else changes. -/
def Obligations.ReadWordsAccepted : Prop :=
  ∀ (s : State) (a : Int) (k : Word), s.Inv → s.seq = .idle → goodAddress a →
    ∃ t, exec (.readWords a k) s = .next t ∧
      t = { s with
        done := false, usage := false, resultLen := 0, fails := 0, lastFault := .none
        reqFn := 0x03, reqMode := .selfdesc, reqCount := k, txlen := 8, seq := .flush
        txbuf := t.txbuf, crc := t.crc } ∧
      t.txFrame = [s.devAddr, 0x03, high (BitVec.ofInt 16 a), low (BitVec.ofInt 16 a), high k, low k,
        low (crc16 (t.txFrame.take 6)), high (crc16 (t.txFrame.take 6))] ∧
      ∀ n, 8 ≤ n → Memory.read t.txbuf n = Memory.read s.txbuf n

/-- R63, with R151, R152, R153, R161: `writeWord` accepted in `IDLE`; the first write-class request since reset goes to
`DELAY`. -/
def Obligations.WriteWordAccepted : Prop :=
  ∀ (s : State) (a : Int) (x : Number), s.Inv → s.seq = .idle → goodAddress a → goodValue x →
    ∃ (t : State) (v : Word), exec (.writeWord a x) s = .next t ∧ (v.toNat : Int) = x.num.tdiv (x.denPred + 1) ∧
      t = { s with
        done := false, usage := false, resultLen := 0, fails := 0, lastFault := .none
        reqFn := 0x06, reqMode := .fixed8, txlen := 8
        seq := if s.firstWriteDone then .flush else .delay
        txbuf := t.txbuf, crc := t.crc } ∧
      t.txFrame = [s.devAddr, 0x06, high (BitVec.ofInt 16 a), low (BitVec.ofInt 16 a), high v, low v,
        low (crc16 (t.txFrame.take 6)), high (crc16 (t.txFrame.take 6))] ∧
      ∀ n, 8 ≤ n → Memory.read t.txbuf n = Memory.read s.txbuf n

/-- R64, with R151, R152, R153, R162: `writeWords` accepted in `IDLE` with `n` values, `n` from 0 to 127. -/
def Obligations.WriteWordsAccepted : Prop :=
  ∀ (s : State) (a : Int) (xs : List Number), s.Inv → s.seq = .idle → goodAddress a →
    xs.length ≤ 127 → (∀ x ∈ xs, goodValue x) →
    ∃ (t : State) (vs : List Word), exec (.writeWords a xs) s = .next t ∧
      vs.map (fun v => (v.toNat : Int)) = xs.map (fun x => x.num.tdiv (x.denPred + 1)) ∧
      t = { s with
        done := false, usage := false, resultLen := 0, fails := 0, lastFault := .none
        reqFn := 0x10, reqMode := .fixed8, txlen := 9 + 2 * xs.length
        seq := if s.firstWriteDone then .flush else .delay
        txbuf := t.txbuf, crc := t.crc } ∧
      t.txFrame = [s.devAddr, 0x10, high (BitVec.ofInt 16 a), low (BitVec.ofInt 16 a), 0,
          BitVec.ofNat 8 xs.length, BitVec.ofNat 8 (2 * xs.length)] ++ vs.flatMap (fun v => [high v, low v]) ++
        [low (crc16 (t.txFrame.take (7 + 2 * xs.length))), high (crc16 (t.txFrame.take (7 + 2 * xs.length)))] ∧
      ∀ n, 9 + 2 * xs.length ≤ n → Memory.read t.txbuf n = Memory.read s.txbuf n

/-- R151, R54: outside `IDLE` no command is accepted and nothing changes. That `attempt` and `execute` called there leave the
whole state as it was is the model's choice (log 12), and that a command presented in `FATAL` is taken and dropped its
reading (log 25). -/
def Obligations.CommandsOnlyInIdle : Prop :=
  ∀ (s : State), s.seq ≠ .idle → ∀ (fn : Byte) (a : Int) (x : Number) (k : Word) (xs : List Number) (m : Mode)
    (p : List Byte),
    exec (.readWords a k) s = .next s ∧ exec (.writeWord a x) s = .next s ∧ exec (.writeWords a xs) s = .next s ∧
    exec (.cmdReserved fn a x xs) s = .next s ∧
    exec (.attempt p fn m k) s = .next s ∧ exec (.execute fn p m k) s = .next s

/-- R10, R103: what the sequencer leaves in `CRC`: after acceptance the CRC of the request without its CRC bytes, after `CHECK` the
CRC of the whole response; no other phase touches it. That each is done in the one step of its phase is the model's
(log 9). -/
def Obligations.CrcAfterBuildAndCheck : Prop :=
  ∀ s t : State, s.Inv →
    (∀ (a : Int) (x : Number) (k : Word) (xs : List Number), s.seq = .idle → t.seq ≠ .idle →
      exec (.readWords a k) s = .next t ∨ exec (.writeWord a x) s = .next t ∨ exec (.writeWords a xs) s = .next t →
      t.crc = crc16 (t.txFrame.take (t.txlen - 2))) ∧
    (s.seq = .check → tick s = .next t → t.crc = crc16 s.rxFrame) ∧
    (s.seq ≠ .check → tick s = .next t → t.crc = s.crc)

/-! ### The sequencer, phase by phase -/

/-- R153: phase `DELAY` ends with `FIRST_WRITE_DONE <- 1` and `SEQ <- FLUSH`, and once set the flag stays set until
reset. -/
def Obligations.DelayOnce : Prop :=
  (∀ s : State, s.seq = .delay → tick s = .next { s with firstWriteDone := true, seq := .flush }) ∧
  ∀ s t : State, noReset s → s.firstWriteDone = true → step s = .next t → t.firstWriteDone = true

/-- R154, R45: phase `FLUSH` empties the input buffer but for what arrives after the call, `RXLEN <- 0`,
`SEQ <- SEND`. -/
def Obligations.FlushPhase : Prop :=
  ∀ s : State, s.seq = .flush → ∃ t, tick s = .next t ∧
    t = { s with rxlen := 0, seq := .send, tp := t.tp } ∧
    t.tp.inBuf = s.tp.turn.arrivals ∧ t.tp.bus = s.tp.bus ++ [.flushInput s.tp.inBuf.length]

/-- R155, R165: phase `SEND` makes one call `T.send(TXBUF[0:TXLEN])`; what follows depends on the answer. -/
def Obligations.SendPhase : Prop :=
  ∀ s : State, s.seq = .send → ∃ t, tick s = .next t ∧
    t.tp.bus = s.tp.bus ++ [.send s.txFrame s.tp.turn.answer] ∧
    (s.tp.turn.answer = .ok → t = { s with seq := .recvHead, tp := t.tp }) ∧
    (s.tp.turn.answer = .fault → FailedWith .transportError s t ∧ t.crc = s.crc) ∧
    (s.tp.turn.answer = .fatalFault → TransportFatal s t)

/-- R156, R165: in `RECV_HEAD` and `RECV_BODY` one step is one call of `T.recvByte()`: a byte is stored and counted, at 3
bytes `RXNEED` is written, at `RXNEED` bytes the frame is complete; a timeout fails the attempt. -/
def Obligations.ReceivePhase : Prop :=
  ∀ s : State, s.Inv → s.receiving = true → ∃ (t : State) (a : RecvAnswer), tick s = .next t ∧
    t.tp.bus = s.tp.bus ++ [.recvByte a] ∧
    (∀ b, a = .byte b →
      (s.tp.inBuf ++ s.tp.turn.arrivals = b :: t.tp.inBuf) ∧
      Memory.read t.rxbuf s.rxlen = b ∧ (∀ n, n ≠ s.rxlen → Memory.read t.rxbuf n = Memory.read s.rxbuf n) ∧
      t = { s with
        rxbuf := t.rxbuf, rxlen := s.rxlen + 1, tp := t.tp
        rxneed := if s.seq = .recvHead ∧ s.rxlen = 2 then
            (if (Memory.read t.rxbuf 1).getLsbD 7 then 5 else if s.reqMode = .fixed8 then 8
              else 5 + (Memory.read t.rxbuf 2).toNat)
          else s.rxneed
        seq := if s.seq = .recvHead then (if s.rxlen = 2 then .recvBody else .recvHead)
          else (if s.rxlen + 1 = s.rxneed then .check else .recvBody) }) ∧
    (a = .timeout → FailedWith .transportTimeout s t ∧ t.crc = s.crc) ∧
    (a = .fatalFault → TransportFatal s t)

/-- R157: phase `CHECK` on a frame that passes: `RESULT`, `RESULT_LEN`, `DONE <- 1`, `SEQ <- IDLE` in one step; `FAILS`,
`LAST_FAULT` and `EXC_CODE` keep what they held. That `CRC` holds the CRC of the response then is log 9. -/
def Obligations.AcceptedFrameCompletes : Prop :=
  ∀ (s : State) (ws : List Word), s.Inv → s.seq = .check →
    validate s.devAddr s.rxFrame s.reqFn s.reqMode s.reqCount = .ok ws →
    ∃ t, tick s = .next t ∧ t.resultList = ws ∧
      t = { s with result := t.result, resultLen := ws.length, done := true, seq := .idle, crc := crc16 s.rxFrame } ∧
      ∀ n, ws.length ≤ n → Memory.read t.result n = Memory.read s.result n

/-- R186, R158: phase `CHECK` on a frame that does not pass: the cause is recorded, a device exception's code is taken from
`RXBUF[2]`, `FAILS` goes up by one, and the next attempt or `FATAL` follows. -/
def Obligations.RejectedFrameIsOneFailedAttempt : Prop :=
  ∀ (s : State), s.seq = .check → s.Inv →
    (∀ c, validate s.devAddr s.rxFrame s.reqFn s.reqMode s.reqCount = .frameFault c →
      ∃ t, tick s = .next t ∧ FailedWith c s t ∧ t.tp = s.tp) ∧
    (∀ code, validate s.devAddr s.rxFrame s.reqFn s.reqMode s.reqCount = .deviceException code →
      ∃ t, tick s = .next t ∧ code = Memory.read s.rxbuf 2 ∧
        FailedWith .deviceException { s with excCode := code } t ∧ t.tp = s.tp)

/-- R159: every transition of `SEQ` that the sequencer makes, and no other. -/
def Obligations.SequencerTransitions : Prop :=
  ∀ s t : State, s.Inv → tick s = .next t →
    match s.seq with
    | .idle => t = s
    | .delay => t.seq = .flush ∧ t.firstWriteDone = true
    | .flush => t.seq = .send ∧ t.rxlen = 0
    | .send => t.seq = .recvHead ∨ FailedWith .transportError s t ∨ TransportFatal s t
    | .recvHead =>
      (t.seq = .recvHead ∧ t.rxlen = s.rxlen + 1 ∧ (t.rxlen = 1 ∨ t.rxlen = 2)) ∨
      (t.seq = .recvBody ∧ t.rxlen = 3 ∧ 5 ≤ t.rxneed ∧ t.rxneed ≤ 260) ∨
      FailedWith .transportTimeout s t ∨ TransportFatal s t
    | .recvBody =>
      (t.seq = .recvBody ∧ t.rxlen = s.rxlen + 1 ∧ t.rxlen < t.rxneed) ∨
      (t.seq = .check ∧ t.rxlen = s.rxlen + 1 ∧ t.rxlen = t.rxneed) ∨
      FailedWith .transportTimeout s t ∨ TransportFatal s t
    | .check =>
      (t.seq = .idle ∧ t.done = true) ∨
      ∃ c x, c ∈ [Cause.frameCrc, .frameAddress, .frameFunction, .frameLength, .deviceException] ∧
        FailedWith c { s with excCode := x } t
    | .fatal => t = s

/-- R189, R151: nothing but reset leaves `FATAL`: whatever is presented and whatever the transport does, the phase, the flag,
the cause and the record of the failed command stay. -/
def Obligations.FatalIsSticky : Prop :=
  ∀ s t : State, s.seq = .fatal → noReset s → step s = .next t →
    t.seq = .fatal ∧ t.fatal = s.fatal ∧ t.fatalCause = s.fatalCause ∧ t.fails = s.fails ∧
    t.lastFault = s.lastFault ∧ t.excCode = s.excCode ∧ t.done = s.done ∧ t.resultLen = s.resultLen

/-! ### Invariants and whole-machine rules -/

/-- Every step of a legal state leads to a legal state. -/
def Obligations.StepKeepsInvariant : Prop :=
  ∀ s t : State, s.Inv → step s = .next t → t.Inv

/-- The state after reset is legal. The values of the registers R26 leaves unspecified are the model's choice (log 2). -/
def Obligations.ResetIsLegal : Prop := State.reset.Inv

/-- R26: what reset leaves, register by register where the spec gives a value. -/
def Obligations.ResetValues : Prop :=
  State.reset.seq = .idle ∧ State.reset.txlen = 0 ∧ State.reset.rxlen = 0 ∧ State.reset.resultLen = 0 ∧
  State.reset.fails = 0 ∧ State.reset.done = false ∧ State.reset.usage = false ∧ State.reset.fatal = false ∧
  State.reset.firstWriteDone = false ∧ State.reset.lastFault.code = 0 ∧ State.reset.fatalCause.code = 0

/-- R210: reset may be applied in any phase, gives every register its reset value and does not touch the transport. The values
of the registers that R26 leaves unspecified are the model's choice (log 2), and so is it that the requests behind the reset
stay at the port and that `ret` is cleared (log 21). -/
def Obligations.ResetStep : Prop :=
  ∀ (s : State) (rest : List PortItem), s.port = .reset :: rest →
    step s = .next { State.reset with tp := s.tp, port := rest }

/-- No legal state makes a step fault. -/
def Obligations.NoFaultFromLegal : Prop :=
  ∀ (s : State) (f : Fault), s.Inv → step s ≠ .fault f

/-- R57, R11, R13, R22: from acceptance to the end of the command the frame, the latches and the configuration do not change,
so every attempt sends the same bytes. -/
def Obligations.RequestIsLatched : Prop :=
  ∀ s t : State, s.busy = true → noReset s → step s = .next t →
    t.txbuf = s.txbuf ∧ t.txlen = s.txlen ∧ t.reqFn = s.reqFn ∧ t.reqMode = s.reqMode ∧ t.reqCount = s.reqCount ∧
    t.devAddr = s.devAddr ∧ t.maxAttempts = s.maxAttempts ∧ t.rxTimeout = s.rxTimeout ∧ t.writeDelay = s.writeDelay

/-- R14, R188: `RESULT` changes only in a step that ends a command with `DONE = 1`. -/
def Obligations.ResultOnlyWithDone : Prop :=
  ∀ s t : State, noReset s → step s = .next t → t.result ≠ s.result → t.done = true ∧ t.seq = .idle

/-- R18: when a command in progress ends, exactly one of `DONE`, `USAGE`, `FATAL` is 1. -/
def Obligations.OneFlagAtTheEnd : Prop :=
  ∀ s t : State, s.Inv → s.busy = true → noReset s → step s = .next t → t.busy = false → t.ended = true

/-- R19, R139: `LAST_FAULT` and `EXC_CODE` are status only: no step of the sequencer depends on them. -/
def Obligations.StatusIsNotRead : Prop :=
  ∀ (s t : State) (c : Cause) (x : Byte), tick s = .next t →
    ∃ t', tick { s with lastFault := c, excCode := x } = .next t' ∧
      { t' with lastFault := t.lastFault, excCode := t.excCode } = t

/-- R16, R169: a command in progress ends after finitely many steps: at most 263 for each attempt left and one for the
delay. -/
def Obligations.CommandsEnd : Prop :=
  ∀ s : State, s.Inv → s.busy = true → s.port = [] →
    ∃ (n : Nat) (t : State), n ≤ 1 + 263 * (s.maxAttempts - s.fails) ∧ core.run n s = .next t ∧ t.busy = false

/-- R22, R216: a configuration register is written in `IDLE` with a legal value, and the write is refused otherwise. The
refusals in `FATAL`, of `RX_TIMEOUT` 0 and of a `DEV_ADDR` above 255 are the model's choice (log 19). -/
def Obligations.ConfigurationWrites : Prop :=
  ∀ (s : State) (r : ConfigReg) (v : Nat) (rest : List PortItem), s.port = .writeConfig r v :: rest →
    (s.seq ≠ .idle → step s = .refused .configNotIdle) ∧
    (s.seq = .idle → r = .maxAttempts → v = 0 → step s = .refused .illegalConfig) ∧
    (s.seq = .idle → r = .maxAttempts → 1 ≤ v → step s = .next { s with maxAttempts := v, port := rest }) ∧
    (s.seq = .idle → r = .rxTimeout → v = 0 → step s = .refused .illegalConfig) ∧
    (s.seq = .idle → r = .devAddr → 255 < v → step s = .refused .illegalConfig) ∧
    (s.seq = .idle → r = .devAddr → v ≤ 255 → step s = .next { s with devAddr := BitVec.ofNat 8 v, port := rest }) ∧
    (s.seq = .idle → r = .rxTimeout → 0 < v → step s = .next { s with rxTimeout := v, port := rest }) ∧
    (s.seq = .idle → r = .writeDelay → step s = .next { s with writeDelay := v, port := rest })

/-- R10, R14, R17 to R22, R180, D29: what the host reads of every register, in every phase: `BUSY` by its definition,
`LAST_FAULT` and `FATAL_CAUSE` by their codes, `RESULT` only with `DONE = 1`. That the configuration registers are read outside
`IDLE` too is the model's choice (log 30), as is what a read of a stale `EXC_CODE` gives (log 20). -/
def Obligations.HostReads : Prop :=
  ∀ (s : State) (r : HostReg) (rest : List PortItem), s.port = .read r :: rest →
    (r = .result → s.done = false → step s = .refused .resultNotReady) ∧
    ((r = .result → s.done = true) → step s = .next { s with
      port := rest
      ret := match r with
        | .crc => .word s.crc
        | .result => .words s.resultList
        | .resultLen => .nat s.resultLen
        | .busy => .bool (decide (s.seq ≠ .idle ∧ s.seq ≠ .fatal))
        | .done => .bool s.done
        | .usage => .bool s.usage
        | .fatal => .bool s.fatal
        | .fails => .nat s.fails
        | .lastFault => .nat (match s.lastFault with
          | .none => 0
          | .usageBadAddress => 1
          | .usageBadOperand => 2
          | .usageBadFunction => 3
          | .frameCrc => 4
          | .frameAddress => 5
          | .frameFunction => 6
          | .frameLength => 7
          | .deviceException => 8
          | .transportTimeout => 9
          | .transportError => 10)
        | .excCode => .nat s.excCode.toNat
        | .fatalCause => .nat (match s.fatalCause with
          | .none => 0
          | .exhaustedRetries => 1
          | .transportFatal => 2)
        | .devAddr => .nat s.devAddr.toNat
        | .maxAttempts => .nat s.maxAttempts
        | .rxTimeout => .nat s.rxTimeout
        | .writeDelay => .nat s.writeDelay })

/-! ### Frames on the wire -/

/-- R155, R46: a request row's frame leaves the block exactly in phase `SEND` with `TXBUF[0:TXLEN]` equal to it, in one call of
`T.send`; in any other state nothing is emitted and nothing changes. A frame that is no request row's is never `TXBUF[0:TXLEN]`
in phase `SEND` of a legal state, so nothing comes of presenting one (log 13). -/
def Obligations.RequestEmission : Prop :=
  (∀ (s : State) (i : Instr) (frame : List Byte), encode i = .tx frame →
    (s.seq = .send → s.txFrame = frame → ∃ t, exec i s = .next t ∧ tick s = .next t ∧
      t.tp.bus = s.tp.bus ++ [.send frame s.tp.turn.answer] ∧
      (s.tp.turn.answer = .ok → t = { s with seq := .recvHead, tp := t.tp })) ∧
    (s.seq ≠ .send ∨ s.txFrame ≠ frame → exec i s = .next s)) ∧
  ∀ (s : State) (frame : List Byte) (rest : List PortItem) (e : DecodeError), s.Inv →
    s.port = .op (.tx frame) :: rest → decode (.tx frame) = .error e → step s = .next { s with port := rest }

/-- R60 to R64: in a legal state in phase `SEND` the frame is a well-formed request row's, and the sequencer's step is the
emission of that row. -/
def Obligations.EmittedFrameIsRow : Prop :=
  ∀ s : State, s.Inv → s.seq = .send →
    ∃ i : Instr, i.wf = true ∧ encode i = .tx s.txFrame ∧ tick s = exec i s

/-- R24, R45: a response frame that reaches a block that is not collecting one queues behind the buffered bytes and changes
nothing else; so do the bytes of a frame that is no response row's (R43, log 13). -/
def Obligations.StrayResponse : Prop :=
  (∀ (s : State) (i : Instr) (frame : List Byte), encode i = .rx frame → s.receiving = false →
    exec i s = .next { s with tp := { s.tp with inBuf := s.tp.inBuf ++ frame } }) ∧
  ∀ (s : State) (frame : List Byte) (rest : List PortItem) (e : DecodeError), s.receiving = false →
    s.port = .op (.rx frame) :: rest → decode (.rx frame) = .error e →
    step s = .next { s with port := rest, tp := { s.tp with inBuf := s.tp.inBuf ++ frame } }

/-- R47, R156, R157: a response frame that reaches a collecting block leaves it in a state that the sequencer's own steps
reach when the frame is buffered and as many calls of `T.recvByte()` as bytes were taken answer with a byte. The same holds
of the bytes of a frame that is no response row's (R43, R73; log 13). -/
def Obligations.ResponseIsReceived : Prop :=
  (∀ (s t : State) (i : Instr) (frame : List Byte), s.Inv → s.receiving = true → s.port = [] → encode i = .rx frame →
    exec i s = .next t →
    ∃ m k : Nat, core.run k { s with tp := { s.tp with
      inBuf := s.tp.inBuf ++ frame, turns := List.replicate m ⟨[], .ok⟩ ++ s.tp.turns } } = .next t) ∧
  ∀ (s t : State) (frame : List Byte) (e : DecodeError), s.Inv → s.receiving = true →
    s.port = [.op (.rx frame)] → decode (.rx frame) = .error e → step s = .next t →
    ∃ m k : Nat, core.run k { s with
      port := []
      tp := { s.tp with
        inBuf := s.tp.inBuf ++ frame, turns := List.replicate m ⟨[], .ok⟩ ++ s.tp.turns } } = .next t

/-- R65, R134, R157: the awaited read response ends the command with its words (log 11; `CRC` afterwards: log 9). -/
def Obligations.ReadResponseCompletes : Prop :=
  ∀ (s : State) (data : List Byte), awaiting s → s.reqFn = 0x03 → data.length = 2 * s.reqCount.toNat →
    data.length ≤ 254 →
    ∃ t, exec (.rspRead s.devAddr data (crc16 (rspReadBody s.devAddr data))) s = .next t ∧
      t.seq = .idle ∧ t.done = true ∧ t.resultLen = s.reqCount.toNat ∧
      (∀ i, i < s.reqCount.toNat → t.resultList[i]? =
        some (BitVec.ofNat 16 ((data.getD (2 * i) 0).toNat * 256 + (data.getD (2 * i + 1) 0).toNat))) ∧
      t = { s with
        rxbuf := t.rxbuf, rxlen := 5 + data.length, rxneed := 5 + data.length, result := t.result
        resultLen := t.resultLen, done := true, seq := .idle, crc := 0, tp := t.tp } ∧
      t.tp.inBuf = [] ∧
      t.rxFrame = rspReadBody s.devAddr data ++ le16 (crc16 (rspReadBody s.devAddr data)) ∧
      (∀ n, 5 + data.length ≤ n → Memory.read t.rxbuf n = Memory.read s.rxbuf n) ∧
      ∀ n, s.reqCount.toNat ≤ n → Memory.read t.result n = Memory.read s.result n

/-- R66, R67, R135: the awaited acknowledgment of a write ends the command with its two echoed fields, unchecked (log 11; `CRC` afterwards: log 9). -/
def Obligations.AcknowledgmentCompletes : Prop :=
  ∀ (s : State) (x y : Word), awaiting s →
    (s.reqFn = 0x06 → ∃ t,
      exec (.rspWSingle s.devAddr x y (crc16 (twoFieldBody s.devAddr 0x06 x y))) s = .next t ∧
      t.resultList = [x, y] ∧
      t = { s with
        rxbuf := t.rxbuf, rxlen := 8, rxneed := 8, result := t.result, resultLen := 2, done := true
        seq := .idle, crc := 0, tp := t.tp } ∧ t.tp.inBuf = [] ∧
      t.rxFrame = twoFieldBody s.devAddr 0x06 x y ++ le16 (crc16 (twoFieldBody s.devAddr 0x06 x y)) ∧
      (∀ n, 8 ≤ n → Memory.read t.rxbuf n = Memory.read s.rxbuf n) ∧
      ∀ n, 2 ≤ n → Memory.read t.result n = Memory.read s.result n) ∧
    (s.reqFn = 0x10 → ∃ t,
      exec (.rspWMulti s.devAddr x y (crc16 (twoFieldBody s.devAddr 0x10 x y))) s = .next t ∧
      t.resultList = [x, y] ∧
      t = { s with
        rxbuf := t.rxbuf, rxlen := 8, rxneed := 8, result := t.result, resultLen := 2, done := true
        seq := .idle, crc := 0, tp := t.tp } ∧ t.tp.inBuf = [] ∧
      t.rxFrame = twoFieldBody s.devAddr 0x10 x y ++ le16 (crc16 (twoFieldBody s.devAddr 0x10 x y)) ∧
      (∀ n, 8 ≤ n → Memory.read t.rxbuf n = Memory.read s.rxbuf n) ∧
      ∀ n, 2 ≤ n → Memory.read t.result n = Memory.read s.result n)

/-- R68, R186, R139: the awaited exception response, whatever its code, is one failed attempt with cause
`DEVICE_EXCEPTION`. That the row's bytes are taken and checked in one `exec` is the model's choice (log 11), and that `CRC`
then holds the CRC of the frame is its reading (log 9). -/
def Obligations.ExceptionResponseFails : Prop :=
  ∀ (s : State) (fn code : Byte), awaiting s → fn.getLsbD 7 = true →
    ∃ t, exec (.rspExc s.devAddr fn code (crc16 [s.devAddr, fn, code])) s = .next t ∧
      FailedWith .deviceException { s with
        excCode := code, rxbuf := t.rxbuf, rxlen := 5, rxneed := 5 } t ∧ t.tp.inBuf = [] ∧
      t.rxFrame = [s.devAddr, fn, code] ++ le16 (crc16 [s.devAddr, fn, code]) ∧
      ∀ n, 5 ≤ n → Memory.read t.rxbuf n = Memory.read s.rxbuf n

/-! ### The exchange as one loop -/

/-- R166: what an attempt touches: the receive buffer and its counters, `CRC`, the transport, and the value returned. That
the bytes stand in `RXBUF` is log 12, and that it runs for an `fn` with bit 7 set log 17. -/
def Obligations.AttemptFrame : Prop :=
  ∀ (s : State) (frame : List Byte) (fn : Byte) (m : Mode) (k : Word), s.seq = .idle →
    ∃ (t : State) (r : AttemptResult), exec (.attempt frame fn m k) s = .next t ∧
      t = { s with rxbuf := t.rxbuf, rxlen := t.rxlen, rxneed := t.rxneed, crc := t.crc, tp := t.tp, ret := .attempt r } ∧
      sends t.tp.bus = sends s.tp.bus + 1 ∧ flushes t.tp.bus = flushes s.tp.bus + 1 ∧
      ∀ n, t.rxlen ≤ n → Memory.read t.rxbuf n = Memory.read s.rxbuf n

/-- R166, R185: the result of an attempt: the answer of the send decides first; then a timeout or the transport's fatal fault
at any byte of the head or the body, with the bytes before it received; a response that comes whole and in time is
decided by `validate`. That the bytes stand in `RXBUF` is log 12, and that it runs for an `fn` with bit 7 set log 17. -/
def Obligations.AttemptResult : Prop :=
  ∀ (s : State) (frame : List Byte) (fn : Byte) (m : Mode) (k : Word) (rx : List Byte) (rest : List Turn),
    s.Inv → s.seq = .idle →
    (∀ a0 a1 e, s.tp.turns = ⟨a0, e⟩ :: ⟨a1, .fault⟩ :: rest → ∃ t, exec (.attempt frame fn m k) s = .next t ∧
      t.ret = .attempt (.failed (.plain .transportError)) ∧ t.tp.turns = rest) ∧
    (∀ a0 a1 e, s.tp.turns = ⟨a0, e⟩ :: ⟨a1, .fatalFault⟩ :: rest → ∃ t, exec (.attempt frame fn m k) s = .next t ∧
      t.ret = .attempt .fatal ∧ t.tp.turns = rest) ∧
    (∀ (pre arrivals : List Byte) (a : Answer), needsMore pre m → a = .fault ∨ (a = .ok ∧ arrivals = []) →
      s.tp.turns = cleanExchange pre ++ ⟨arrivals, a⟩ :: rest → ∃ t, exec (.attempt frame fn m k) s = .next t ∧
        t.ret = .attempt (.failed (.plain .transportTimeout)) ∧
        t.rxlen = pre.length ∧ Memory.readList t.rxbuf 0 pre.length = pre ∧ t.tp.turns = rest) ∧
    (∀ pre arrivals : List Byte, needsMore pre m →
      s.tp.turns = cleanExchange pre ++ ⟨arrivals, .fatalFault⟩ :: rest →
      ∃ t, exec (.attempt frame fn m k) s = .next t ∧
        t.ret = .attempt .fatal ∧
        t.rxlen = pre.length ∧ Memory.readList t.rxbuf 0 pre.length = pre ∧ t.tp.turns = rest) ∧
    (completeFrame rx m = true → s.tp.turns = cleanExchange rx ++ rest → ∃ t,
      exec (.attempt frame fn m k) s = .next t ∧ t.rxFrame = rx ∧ t.tp.turns = rest ∧
      t.ret = .attempt (match validate s.devAddr rx fn m k with
        | .ok ws => .ok ws
        | .frameFault c => .failed (.plain c)
        | .deviceException code => .failed (.exception code)))

/-- R150, R167, R168, R169: `execute` from `IDLE` always ends: with the words and `DONE = 1` after fewer than `MAX_ATTEMPTS`
failures, or in `FATAL` without a result; the same frame was handed to `T.send` once for each attempt. That it runs with a
payload beyond R110's domain, sending a free frame, is log 17, and with a `mode` that is not its `fn`'s log 28; that another
`fn` is the usage fault is log 12. -/
def Obligations.ExecuteEnds : Prop :=
  (∀ (s : State) (fn : Byte) (p : List Byte) (m : Mode) (k : Word), s.seq = .idle → legalFn fn = false →
    exec (.execute fn p m k) s = .next (faulted .usageBadFunction s)) ∧
  ∀ (s : State) (fn : Byte) (p : List Byte) (m : Mode) (k : Word), s.Inv → s.seq = .idle → legalFn fn = true →
    ∃ (t : State) (n : Nat), exec (.execute fn p m k) s = .next t ∧
      t = { s with
        crc := t.crc, txbuf := t.txbuf, txlen := t.txlen, rxbuf := t.rxbuf, rxlen := t.rxlen, rxneed := t.rxneed
        reqFn := fn, reqMode := m, reqCount := (if m = .selfdesc then k else s.reqCount)
        result := t.result, resultLen := t.resultLen, seq := t.seq, fails := t.fails, done := t.done, usage := false
        fatal := t.fatal, firstWriteDone := (s.firstWriteDone || writeClass fn)
        lastFault := t.lastFault, excCode := t.excCode, fatalCause := t.fatalCause, tp := t.tp, ret := t.ret } ∧
      (p.length ≤ 259 → t.txlen = p.length + 4 ∧ t.txFrame = buildFrame s.devAddr fn p) ∧
      (259 < p.length → t.txFrame = (Config.unstatedFrame s.devAddr fn p).take 263) ∧
      sends t.tp.bus = sends s.tp.bus + n ∧ sendsOf t.txFrame t.tp.bus = sendsOf t.txFrame s.tp.bus + n ∧
      flushes t.tp.bus = flushes s.tp.bus + n ∧
      (∀ a, t.txlen ≤ a → Memory.read t.txbuf a = Memory.read s.txbuf a) ∧
      (∀ a, t.resultLen ≤ a → Memory.read t.result a = Memory.read s.result a) ∧
      ((t.seq = .idle ∧ t.done = true ∧ t.fatal = false ∧ t.ret = .words t.resultList ∧ t.fails < s.maxAttempts ∧
          n = t.fails + 1) ∨
       (t.seq = .fatal ∧ t.done = false ∧ t.fatal = true ∧ t.resultLen = 0 ∧ t.ret = .none ∧
          ((t.fatalCause = .exhaustedRetries ∧ t.fails = s.maxAttempts ∧ n = s.maxAttempts) ∨
            (t.fatalCause = .transportFatal ∧ t.fails < s.maxAttempts ∧ n = t.fails + 1))))

/-- R150 against R154 to R158: from the start of an attempt, the steps of the sequencer reach exactly the state that the loop
of `execute` computes, for every behaviour of the transport. -/
def Obligations.LoopFormIsPhaseForm : Prop :=
  ∀ (s : State) (n : Nat), s.Inv → s.seq = .flush → s.port = [] → s.maxAttempts - s.fails ≤ n →
    ∃ k : Nat, core.run k s = .next (executeLoop s.txFrame s.reqFn s.reqMode s.reqCount n s)

/-- R160, R161, R162: a host command that passes the usage checks runs, step by step, to exactly the state that `execute`
computes from its function code, payload and mode. -/
def Obligations.HostCommandsAreExecute : Prop :=
  ∀ (s : State) (a : Int), s.Inv → s.seq = .idle → goodAddress a →
    (∀ k : Word, s.port = [.op (encode (.readWords a k))] → ∃ n : Nat, core.run n s =
      .next (execute 0x03 (encRead (BitVec.ofInt 16 a) k) .selfdesc k { s with port := [] })) ∧
    (∀ x : Number, goodValue x → s.port = [.op (encode (.writeWord a x))] → ∃ n : Nat, core.run n s =
      .next (execute 0x06 (encWSingle (BitVec.ofInt 16 a) (BitVec.ofInt 16 (toWord x))) .fixed8 0
        { s with port := [] })) ∧
    (∀ xs : List Number, xs.length ≤ 127 → (∀ x ∈ xs, goodValue x) →
      s.port = [.op (encode (.writeWords a xs))] → ∃ n : Nat, core.run n s =
      .next (execute 0x10 (encWMulti (BitVec.ofInt 16 a) (xs.map fun x => BitVec.ofInt 16 (toWord x))) .fixed8 0
        { s with port := [] }))

/-- R137, R214: the block cannot tell whose data it delivers: for every start address and every words there is a behaviour of
the transport with which the read ends `DONE` with exactly those words. -/
def Obligations.AnyWordsCanBeDelivered : Prop :=
  ∀ (s : State) (a : Int) (ws : List Word), s.Inv → s.seq = .idle → goodAddress a → ws.length ≤ 127 →
    ∃ (turns : List Turn) (n : Nat) (t : State),
      core.run n { s with
        port := [.op (encode (.readWords a (BitVec.ofNat 16 ws.length)))], tp := { s.tp with turns := turns } } =
        .next t ∧
      t.seq = .idle ∧ t.done = true ∧ t.fails = 0 ∧ t.resultList = ws
end

