-- ==== Sys2Proof/Laws/Bits.lean ====
section
/-! SUPPORT. The byte-order operations undo each other (R40, R41). -/

namespace Sys2Proof.Machine

theorem toNat_hiByte (w : Word) : (hiByte w).toNat = w.toNat / 256 := by
  have := w.isLt
  simp only [hiByte, BitVec.extractLsb'_toNat, Nat.shiftRight_eq_div_pow]
  omega

theorem toNat_loByte (w : Word) : (loByte w).toNat = w.toNat % 256 := by
  simp [loByte, BitVec.extractLsb'_toNat]

theorem toNat_u16be (a b : Byte) : (u16be a b).toNat = a.toNat * 256 + b.toNat := by
  have := a.isLt
  have := b.isLt
  simp only [u16be, BitVec.toNat_ofNat]
  omega

@[simp] theorem u16be_bytes (w : Word) : u16be (hiByte w) (loByte w) = w := by
  apply BitVec.eq_of_toNat_eq
  rw [toNat_u16be, toNat_hiByte, toNat_loByte]
  omega

@[simp] theorem hiByte_u16be (a b : Byte) : hiByte (u16be a b) = a := by
  have := b.isLt
  apply BitVec.eq_of_toNat_eq
  rw [toNat_hiByte, toNat_u16be]
  omega

@[simp] theorem loByte_u16be (a b : Byte) : loByte (u16be a b) = b := by
  have := b.isLt
  apply BitVec.eq_of_toNat_eq
  rw [toNat_loByte, toNat_u16be]
  omega

@[simp] theorem u16le_bytes (w : Word) : u16le (loByte w) (hiByte w) = w := u16be_bytes w

@[simp] theorem be16_u16be (a b : Byte) : be16 (u16be a b) = [a, b] := by simp [be16]

@[simp] theorem le16_u16le (a b : Byte) : le16 (u16le a b) = [a, b] := by simp [le16, u16le]

@[simp] theorem length_be16 (w : Word) : (be16 w).length = 2 := rfl

@[simp] theorem length_le16 (w : Word) : (le16 w).length = 2 := rfl

/-- A sequence of 16-bit fields takes two bytes for each. -/
theorem length_flatMap_be16 (vs : List Word) : (vs.flatMap be16).length = 2 * vs.length := by
  induction vs with
  | nil => rfl
  | cons v vs ih => simp only [List.flatMap_cons, List.length_append, List.length_cons, length_be16, ih]; omega

end Sys2Proof.Machine
end

