-- ==== Sys2Proof/Laws/Memory.lean ====
section
/-! SUPPORT. The laws of the frame buffers: read after write, and that every operation keeps the canonical form. -/

namespace Sys2Proof.Machine

variable {w : Nat}

@[simp] theorem read_nil (a : Nat) : Memory.read ([] : Memory w) a = Memory.blank := rfl

/-- Below the first address of a canonical list every cell is blank. -/
theorem read_below {cap lo a : Nat} {m : Memory w} (h : Memory.wfFrom cap lo m = true) (ha : a < lo) :
    Memory.read m a = Memory.blank := by
  induction m generalizing lo with
  | nil => rfl
  | cons c m ih =>
    obtain ⟨k, v⟩ := c
    simp only [Memory.wfFrom, Bool.and_eq_true, decide_eq_true_eq] at h
    simp only [Memory.read]
    rw [if_neg (by omega)]
    exact ih h.2 (by omega)

theorem read_write_same {cap lo : Nat} {m : Memory w} (h : Memory.wfFrom cap lo m = true) (a : Nat) (v : BitVec w) :
    Memory.read (Memory.write m a v) a = v := by
  induction m generalizing lo with
  | nil => simp only [Memory.write]; split <;> simp_all [Memory.read]
  | cons c m ih =>
    obtain ⟨k, u⟩ := c
    simp only [Memory.wfFrom, Bool.and_eq_true, decide_eq_true_eq] at h
    simp only [Memory.write]
    split
    · next hlt =>
      split
      · next hv =>
        simp only [Memory.read]
        rw [if_neg (by omega), read_below h.2 (by omega), hv]
      · simp [Memory.read]
    · split
      · next hk =>
        split
        · next hv => rw [read_below h.2 (by omega), hv]
        · simp [Memory.read]
      · simp only [Memory.read]
        rw [if_neg (by omega)]
        exact ih h.2

theorem read_write_ne {m : Memory w} {a b : Nat} (v : BitVec w) (hab : b ≠ a) :
    Memory.read (Memory.write m a v) b = Memory.read m b := by
  induction m with
  | nil => simp only [Memory.write]; split <;> simp [Memory.read, hab.symm]
  | cons c m ih =>
    obtain ⟨k, u⟩ := c
    simp only [Memory.write]
    split
    · split <;> simp [Memory.read, hab.symm]
    · split
      · next hk => split <;> simp [Memory.read, hab.symm, ← hk]
      · simp only [Memory.read, ih]

theorem wfFrom_mono {cap lo lo' : Nat} {m : Memory w} (h : Memory.wfFrom cap lo m = true) (hl : lo' ≤ lo) :
    Memory.wfFrom cap lo' m = true := by
  cases m with
  | nil => rfl
  | cons c m =>
    obtain ⟨k, v⟩ := c
    simp only [Memory.wfFrom, Bool.and_eq_true, decide_eq_true_eq] at h ⊢
    exact ⟨⟨⟨by omega, h.1.1.2⟩, h.1.2⟩, h.2⟩

/-- A write inside the capacity keeps the canonical form. -/
theorem wfFrom_write {cap lo a : Nat} {m : Memory w} (v : BitVec w) (h : Memory.wfFrom cap lo m = true)
    (hlo : lo ≤ a) (hcap : a < cap) : Memory.wfFrom cap lo (Memory.write m a v) = true := by
  induction m generalizing lo with
  | nil => simp only [Memory.write]; split <;> simp_all [Memory.wfFrom]
  | cons c m ih =>
    obtain ⟨k, u⟩ := c
    have h' := h
    simp only [Memory.wfFrom, Bool.and_eq_true, decide_eq_true_eq] at h
    simp only [Memory.write]
    split
    · split
      · exact h'
      · next hv =>
        simp only [Memory.wfFrom, Bool.and_eq_true, decide_eq_true_eq]
        exact ⟨⟨⟨hlo, hcap⟩, hv⟩, ⟨⟨⟨by omega, h.1.1.2⟩, h.1.2⟩, h.2⟩⟩
    · split
      · split
        · exact wfFrom_mono h.2 (by omega)
        · next hv =>
          simp only [Memory.wfFrom, Bool.and_eq_true, decide_eq_true_eq]
          exact ⟨⟨⟨hlo, hcap⟩, hv⟩, wfFrom_mono h.2 (by omega)⟩
      · simp only [Memory.wfFrom, Bool.and_eq_true, decide_eq_true_eq]
        exact ⟨⟨⟨h.1.1.1, h.1.1.2⟩, h.1.2⟩, ih h.2 (by omega)⟩

theorem wf_write {cap a : Nat} {m : Memory w} (v : BitVec w) (h : Memory.wf cap m = true) (hcap : a < cap) :
    Memory.wf cap (Memory.write m a v) = true := wfFrom_write v h (Nat.zero_le a) hcap

theorem wf_writeList {cap a : Nat} {m : Memory w} (vs : List (BitVec w)) (h : Memory.wf cap m = true)
    (hcap : a + vs.length ≤ cap) : Memory.wf cap (Memory.writeList m a vs) = true := by
  induction vs generalizing a m with
  | nil => exact h
  | cons v vs ih =>
    simp only [List.length_cons] at hcap
    exact ih (wf_write v h (by omega)) (by omega)

@[simp] theorem length_readList (m : Memory w) (a n : Nat) : (Memory.readList m a n).length = n := by
  induction n generalizing a with
  | zero => rfl
  | succ n ih => simp [Memory.readList, ih]

theorem read_writeList_lt {m : Memory w} {a b : Nat} (vs : List (BitVec w)) (h : b < a) :
    Memory.read (Memory.writeList m a vs) b = Memory.read m b := by
  induction vs generalizing a m with
  | nil => rfl
  | cons v vs ih =>
    simp only [Memory.writeList]
    rw [ih (by omega), read_write_ne v (by omega)]

/-- What was written is read back. -/
theorem readList_writeList {cap a : Nat} {m : Memory w} (vs : List (BitVec w)) (h : Memory.wf cap m = true)
    (hcap : a + vs.length ≤ cap) : Memory.readList (Memory.writeList m a vs) a vs.length = vs := by
  induction vs generalizing a m with
  | nil => rfl
  | cons v vs ih =>
    simp only [List.length_cons] at hcap ⊢
    simp only [Memory.readList, Memory.writeList]
    rw [ih (wf_write v h (by omega)) (by omega), read_writeList_lt vs (by omega), read_write_same h]

/-- A cell outside the written ones is unchanged. -/
theorem read_writeList_ge {m : Memory w} {a b : Nat} (vs : List (BitVec w)) (h : a + vs.length ≤ b) :
    Memory.read (Memory.writeList m a vs) b = Memory.read m b := by
  induction vs generalizing a m with
  | nil => rfl
  | cons v vs ih =>
    simp only [List.length_cons] at h
    simp only [Memory.writeList]
    rw [ih (by omega), read_write_ne v (by omega)]

theorem getElem?_readList (m : Memory w) (a n i : Nat) (h : i < n) :
    (Memory.readList m a n)[i]? = some (Memory.read m (a + i)) := by
  induction n generalizing a i with
  | zero => omega
  | succ n ih =>
    cases i with
    | zero => simp [Memory.readList]
    | succ i =>
      simp only [Memory.readList, List.getElem?_cons_succ]
      rw [ih (a + 1) i (by omega)]
      congr 2; omega

theorem byteAt_readList (m : Memory 8) (n i : Nat) (h : i < n) :
    byteAt (Memory.readList m 0 n) i = Memory.read m i := by
  simp [byteAt, List.getD_eq_getElem?_getD, getElem?_readList m 0 n i h]

/-- The buffers after reset are canonical. -/
theorem wf_reset : Memory.wf Config.txbufMax State.reset.txbuf = true ∧
    Memory.wf Config.rxbufMax State.reset.rxbuf = true ∧ Memory.wf Config.resultMax State.reset.result = true :=
  ⟨rfl, rfl, rfl⟩

end Sys2Proof.Machine
end

