-- ==== Sys2Proof/Laws/State.lean ====
section
/-! SUPPORT. The fields of a state after each named update, one lemma per field, so that no proof unfolds a record
update. -/

namespace Sys2Proof.Machine

/-! ### setCrc -/

@[simp] theorem setCrc_crc (c : Word) (s : State) : (setCrc c s).crc = c := rfl
@[simp] theorem setCrc_txbuf (c : Word) (s : State) : (setCrc c s).txbuf = s.txbuf := rfl
@[simp] theorem setCrc_txlen (c : Word) (s : State) : (setCrc c s).txlen = s.txlen := rfl
@[simp] theorem setCrc_rxbuf (c : Word) (s : State) : (setCrc c s).rxbuf = s.rxbuf := rfl
@[simp] theorem setCrc_rxlen (c : Word) (s : State) : (setCrc c s).rxlen = s.rxlen := rfl
@[simp] theorem setCrc_rxneed (c : Word) (s : State) : (setCrc c s).rxneed = s.rxneed := rfl
@[simp] theorem setCrc_reqFn (c : Word) (s : State) : (setCrc c s).reqFn = s.reqFn := rfl
@[simp] theorem setCrc_reqMode (c : Word) (s : State) : (setCrc c s).reqMode = s.reqMode := rfl
@[simp] theorem setCrc_reqCount (c : Word) (s : State) : (setCrc c s).reqCount = s.reqCount := rfl
@[simp] theorem setCrc_result (c : Word) (s : State) : (setCrc c s).result = s.result := rfl
@[simp] theorem setCrc_resultLen (c : Word) (s : State) : (setCrc c s).resultLen = s.resultLen := rfl
@[simp] theorem setCrc_seq (c : Word) (s : State) : (setCrc c s).seq = s.seq := rfl
@[simp] theorem setCrc_fails (c : Word) (s : State) : (setCrc c s).fails = s.fails := rfl
@[simp] theorem setCrc_done (c : Word) (s : State) : (setCrc c s).done = s.done := rfl
@[simp] theorem setCrc_usage (c : Word) (s : State) : (setCrc c s).usage = s.usage := rfl
@[simp] theorem setCrc_fatal (c : Word) (s : State) : (setCrc c s).fatal = s.fatal := rfl
@[simp] theorem setCrc_firstWriteDone (c : Word) (s : State) : (setCrc c s).firstWriteDone = s.firstWriteDone := rfl
@[simp] theorem setCrc_lastFault (c : Word) (s : State) : (setCrc c s).lastFault = s.lastFault := rfl
@[simp] theorem setCrc_excCode (c : Word) (s : State) : (setCrc c s).excCode = s.excCode := rfl
@[simp] theorem setCrc_fatalCause (c : Word) (s : State) : (setCrc c s).fatalCause = s.fatalCause := rfl
@[simp] theorem setCrc_devAddr (c : Word) (s : State) : (setCrc c s).devAddr = s.devAddr := rfl
@[simp] theorem setCrc_maxAttempts (c : Word) (s : State) : (setCrc c s).maxAttempts = s.maxAttempts := rfl
@[simp] theorem setCrc_rxTimeout (c : Word) (s : State) : (setCrc c s).rxTimeout = s.rxTimeout := rfl
@[simp] theorem setCrc_writeDelay (c : Word) (s : State) : (setCrc c s).writeDelay = s.writeDelay := rfl
@[simp] theorem setCrc_tp (c : Word) (s : State) : (setCrc c s).tp = s.tp := rfl
@[simp] theorem setCrc_port (c : Word) (s : State) : (setCrc c s).port = s.port := rfl
@[simp] theorem setCrc_ret (c : Word) (s : State) : (setCrc c s).ret = s.ret := rfl

/-! ### setRet -/

@[simp] theorem setRet_crc (v : RetVal) (s : State) : (setRet v s).crc = s.crc := rfl
@[simp] theorem setRet_txbuf (v : RetVal) (s : State) : (setRet v s).txbuf = s.txbuf := rfl
@[simp] theorem setRet_txlen (v : RetVal) (s : State) : (setRet v s).txlen = s.txlen := rfl
@[simp] theorem setRet_rxbuf (v : RetVal) (s : State) : (setRet v s).rxbuf = s.rxbuf := rfl
@[simp] theorem setRet_rxlen (v : RetVal) (s : State) : (setRet v s).rxlen = s.rxlen := rfl
@[simp] theorem setRet_rxneed (v : RetVal) (s : State) : (setRet v s).rxneed = s.rxneed := rfl
@[simp] theorem setRet_reqFn (v : RetVal) (s : State) : (setRet v s).reqFn = s.reqFn := rfl
@[simp] theorem setRet_reqMode (v : RetVal) (s : State) : (setRet v s).reqMode = s.reqMode := rfl
@[simp] theorem setRet_reqCount (v : RetVal) (s : State) : (setRet v s).reqCount = s.reqCount := rfl
@[simp] theorem setRet_result (v : RetVal) (s : State) : (setRet v s).result = s.result := rfl
@[simp] theorem setRet_resultLen (v : RetVal) (s : State) : (setRet v s).resultLen = s.resultLen := rfl
@[simp] theorem setRet_seq (v : RetVal) (s : State) : (setRet v s).seq = s.seq := rfl
@[simp] theorem setRet_fails (v : RetVal) (s : State) : (setRet v s).fails = s.fails := rfl
@[simp] theorem setRet_done (v : RetVal) (s : State) : (setRet v s).done = s.done := rfl
@[simp] theorem setRet_usage (v : RetVal) (s : State) : (setRet v s).usage = s.usage := rfl
@[simp] theorem setRet_fatal (v : RetVal) (s : State) : (setRet v s).fatal = s.fatal := rfl
@[simp] theorem setRet_firstWriteDone (v : RetVal) (s : State) : (setRet v s).firstWriteDone = s.firstWriteDone := rfl
@[simp] theorem setRet_lastFault (v : RetVal) (s : State) : (setRet v s).lastFault = s.lastFault := rfl
@[simp] theorem setRet_excCode (v : RetVal) (s : State) : (setRet v s).excCode = s.excCode := rfl
@[simp] theorem setRet_fatalCause (v : RetVal) (s : State) : (setRet v s).fatalCause = s.fatalCause := rfl
@[simp] theorem setRet_devAddr (v : RetVal) (s : State) : (setRet v s).devAddr = s.devAddr := rfl
@[simp] theorem setRet_maxAttempts (v : RetVal) (s : State) : (setRet v s).maxAttempts = s.maxAttempts := rfl
@[simp] theorem setRet_rxTimeout (v : RetVal) (s : State) : (setRet v s).rxTimeout = s.rxTimeout := rfl
@[simp] theorem setRet_writeDelay (v : RetVal) (s : State) : (setRet v s).writeDelay = s.writeDelay := rfl
@[simp] theorem setRet_tp (v : RetVal) (s : State) : (setRet v s).tp = s.tp := rfl
@[simp] theorem setRet_port (v : RetVal) (s : State) : (setRet v s).port = s.port := rfl
@[simp] theorem setRet_ret (v : RetVal) (s : State) : (setRet v s).ret = v := rfl

/-! ### clearForCommand -/

@[simp] theorem clearForCommand_crc (s : State) : (clearForCommand s).crc = s.crc := rfl
@[simp] theorem clearForCommand_txbuf (s : State) : (clearForCommand s).txbuf = s.txbuf := rfl
@[simp] theorem clearForCommand_txlen (s : State) : (clearForCommand s).txlen = s.txlen := rfl
@[simp] theorem clearForCommand_rxbuf (s : State) : (clearForCommand s).rxbuf = s.rxbuf := rfl
@[simp] theorem clearForCommand_rxlen (s : State) : (clearForCommand s).rxlen = s.rxlen := rfl
@[simp] theorem clearForCommand_rxneed (s : State) : (clearForCommand s).rxneed = s.rxneed := rfl
@[simp] theorem clearForCommand_reqFn (s : State) : (clearForCommand s).reqFn = s.reqFn := rfl
@[simp] theorem clearForCommand_reqMode (s : State) : (clearForCommand s).reqMode = s.reqMode := rfl
@[simp] theorem clearForCommand_reqCount (s : State) : (clearForCommand s).reqCount = s.reqCount := rfl
@[simp] theorem clearForCommand_result (s : State) : (clearForCommand s).result = s.result := rfl
@[simp] theorem clearForCommand_resultLen (s : State) : (clearForCommand s).resultLen = 0 := rfl
@[simp] theorem clearForCommand_seq (s : State) : (clearForCommand s).seq = s.seq := rfl
@[simp] theorem clearForCommand_fails (s : State) : (clearForCommand s).fails = 0 := rfl
@[simp] theorem clearForCommand_done (s : State) : (clearForCommand s).done = false := rfl
@[simp] theorem clearForCommand_usage (s : State) : (clearForCommand s).usage = false := rfl
@[simp] theorem clearForCommand_fatal (s : State) : (clearForCommand s).fatal = s.fatal := rfl
@[simp] theorem clearForCommand_firstWriteDone (s : State) : (clearForCommand s).firstWriteDone = s.firstWriteDone := rfl
@[simp] theorem clearForCommand_lastFault (s : State) : (clearForCommand s).lastFault = s.lastFault := rfl
@[simp] theorem clearForCommand_excCode (s : State) : (clearForCommand s).excCode = s.excCode := rfl
@[simp] theorem clearForCommand_fatalCause (s : State) : (clearForCommand s).fatalCause = s.fatalCause := rfl
@[simp] theorem clearForCommand_devAddr (s : State) : (clearForCommand s).devAddr = s.devAddr := rfl
@[simp] theorem clearForCommand_maxAttempts (s : State) : (clearForCommand s).maxAttempts = s.maxAttempts := rfl
@[simp] theorem clearForCommand_rxTimeout (s : State) : (clearForCommand s).rxTimeout = s.rxTimeout := rfl
@[simp] theorem clearForCommand_writeDelay (s : State) : (clearForCommand s).writeDelay = s.writeDelay := rfl
@[simp] theorem clearForCommand_tp (s : State) : (clearForCommand s).tp = s.tp := rfl
@[simp] theorem clearForCommand_port (s : State) : (clearForCommand s).port = s.port := rfl
@[simp] theorem clearForCommand_ret (s : State) : (clearForCommand s).ret = s.ret := rfl

/-! ### usageFault -/

@[simp] theorem usageFault_crc (c : Cause) (s : State) : (usageFault c s).crc = s.crc := rfl
@[simp] theorem usageFault_txbuf (c : Cause) (s : State) : (usageFault c s).txbuf = s.txbuf := rfl
@[simp] theorem usageFault_txlen (c : Cause) (s : State) : (usageFault c s).txlen = s.txlen := rfl
@[simp] theorem usageFault_rxbuf (c : Cause) (s : State) : (usageFault c s).rxbuf = s.rxbuf := rfl
@[simp] theorem usageFault_rxlen (c : Cause) (s : State) : (usageFault c s).rxlen = s.rxlen := rfl
@[simp] theorem usageFault_rxneed (c : Cause) (s : State) : (usageFault c s).rxneed = s.rxneed := rfl
@[simp] theorem usageFault_reqFn (c : Cause) (s : State) : (usageFault c s).reqFn = s.reqFn := rfl
@[simp] theorem usageFault_reqMode (c : Cause) (s : State) : (usageFault c s).reqMode = s.reqMode := rfl
@[simp] theorem usageFault_reqCount (c : Cause) (s : State) : (usageFault c s).reqCount = s.reqCount := rfl
@[simp] theorem usageFault_result (c : Cause) (s : State) : (usageFault c s).result = s.result := rfl
@[simp] theorem usageFault_resultLen (c : Cause) (s : State) : (usageFault c s).resultLen = 0 := rfl
@[simp] theorem usageFault_seq (c : Cause) (s : State) : (usageFault c s).seq = s.seq := rfl
@[simp] theorem usageFault_fails (c : Cause) (s : State) : (usageFault c s).fails = 0 := rfl
@[simp] theorem usageFault_done (c : Cause) (s : State) : (usageFault c s).done = false := rfl
@[simp] theorem usageFault_usage (c : Cause) (s : State) : (usageFault c s).usage = true := rfl
@[simp] theorem usageFault_fatal (c : Cause) (s : State) : (usageFault c s).fatal = s.fatal := rfl
@[simp] theorem usageFault_firstWriteDone (c : Cause) (s : State) : (usageFault c s).firstWriteDone = s.firstWriteDone := rfl
@[simp] theorem usageFault_lastFault (c : Cause) (s : State) : (usageFault c s).lastFault = c := rfl
@[simp] theorem usageFault_excCode (c : Cause) (s : State) : (usageFault c s).excCode = s.excCode := rfl
@[simp] theorem usageFault_fatalCause (c : Cause) (s : State) : (usageFault c s).fatalCause = s.fatalCause := rfl
@[simp] theorem usageFault_devAddr (c : Cause) (s : State) : (usageFault c s).devAddr = s.devAddr := rfl
@[simp] theorem usageFault_maxAttempts (c : Cause) (s : State) : (usageFault c s).maxAttempts = s.maxAttempts := rfl
@[simp] theorem usageFault_rxTimeout (c : Cause) (s : State) : (usageFault c s).rxTimeout = s.rxTimeout := rfl
@[simp] theorem usageFault_writeDelay (c : Cause) (s : State) : (usageFault c s).writeDelay = s.writeDelay := rfl
@[simp] theorem usageFault_tp (c : Cause) (s : State) : (usageFault c s).tp = s.tp := rfl
@[simp] theorem usageFault_port (c : Cause) (s : State) : (usageFault c s).port = s.port := rfl
@[simp] theorem usageFault_ret (c : Cause) (s : State) : (usageFault c s).ret = s.ret := rfl

/-! ### enterFatal -/

@[simp] theorem enterFatal_crc (c : FatalCause) (s : State) : (enterFatal c s).crc = s.crc := rfl
@[simp] theorem enterFatal_txbuf (c : FatalCause) (s : State) : (enterFatal c s).txbuf = s.txbuf := rfl
@[simp] theorem enterFatal_txlen (c : FatalCause) (s : State) : (enterFatal c s).txlen = s.txlen := rfl
@[simp] theorem enterFatal_rxbuf (c : FatalCause) (s : State) : (enterFatal c s).rxbuf = s.rxbuf := rfl
@[simp] theorem enterFatal_rxlen (c : FatalCause) (s : State) : (enterFatal c s).rxlen = s.rxlen := rfl
@[simp] theorem enterFatal_rxneed (c : FatalCause) (s : State) : (enterFatal c s).rxneed = s.rxneed := rfl
@[simp] theorem enterFatal_reqFn (c : FatalCause) (s : State) : (enterFatal c s).reqFn = s.reqFn := rfl
@[simp] theorem enterFatal_reqMode (c : FatalCause) (s : State) : (enterFatal c s).reqMode = s.reqMode := rfl
@[simp] theorem enterFatal_reqCount (c : FatalCause) (s : State) : (enterFatal c s).reqCount = s.reqCount := rfl
@[simp] theorem enterFatal_result (c : FatalCause) (s : State) : (enterFatal c s).result = s.result := rfl
@[simp] theorem enterFatal_resultLen (c : FatalCause) (s : State) : (enterFatal c s).resultLen = s.resultLen := rfl
@[simp] theorem enterFatal_seq (c : FatalCause) (s : State) : (enterFatal c s).seq = .fatal := rfl
@[simp] theorem enterFatal_fails (c : FatalCause) (s : State) : (enterFatal c s).fails = s.fails := rfl
@[simp] theorem enterFatal_done (c : FatalCause) (s : State) : (enterFatal c s).done = s.done := rfl
@[simp] theorem enterFatal_usage (c : FatalCause) (s : State) : (enterFatal c s).usage = s.usage := rfl
@[simp] theorem enterFatal_fatal (c : FatalCause) (s : State) : (enterFatal c s).fatal = true := rfl
@[simp] theorem enterFatal_firstWriteDone (c : FatalCause) (s : State) : (enterFatal c s).firstWriteDone = s.firstWriteDone := rfl
@[simp] theorem enterFatal_lastFault (c : FatalCause) (s : State) : (enterFatal c s).lastFault = s.lastFault := rfl
@[simp] theorem enterFatal_excCode (c : FatalCause) (s : State) : (enterFatal c s).excCode = s.excCode := rfl
@[simp] theorem enterFatal_fatalCause (c : FatalCause) (s : State) : (enterFatal c s).fatalCause = c := rfl
@[simp] theorem enterFatal_devAddr (c : FatalCause) (s : State) : (enterFatal c s).devAddr = s.devAddr := rfl
@[simp] theorem enterFatal_maxAttempts (c : FatalCause) (s : State) : (enterFatal c s).maxAttempts = s.maxAttempts := rfl
@[simp] theorem enterFatal_rxTimeout (c : FatalCause) (s : State) : (enterFatal c s).rxTimeout = s.rxTimeout := rfl
@[simp] theorem enterFatal_writeDelay (c : FatalCause) (s : State) : (enterFatal c s).writeDelay = s.writeDelay := rfl
@[simp] theorem enterFatal_tp (c : FatalCause) (s : State) : (enterFatal c s).tp = s.tp := rfl
@[simp] theorem enterFatal_port (c : FatalCause) (s : State) : (enterFatal c s).port = s.port := rfl
@[simp] theorem enterFatal_ret (c : FatalCause) (s : State) : (enterFatal c s).ret = s.ret := rfl

/-! ### storeByte -/

@[simp] theorem storeByte_crc (b : Byte) (s : State) : (storeByte b s).crc = s.crc := rfl
@[simp] theorem storeByte_txbuf (b : Byte) (s : State) : (storeByte b s).txbuf = s.txbuf := rfl
@[simp] theorem storeByte_txlen (b : Byte) (s : State) : (storeByte b s).txlen = s.txlen := rfl
@[simp] theorem storeByte_rxbuf (b : Byte) (s : State) : (storeByte b s).rxbuf = Memory.write s.rxbuf s.rxlen b := rfl
@[simp] theorem storeByte_rxlen (b : Byte) (s : State) : (storeByte b s).rxlen = s.rxlen + 1 := rfl
@[simp] theorem storeByte_rxneed (b : Byte) (s : State) : (storeByte b s).rxneed = s.rxneed := rfl
@[simp] theorem storeByte_reqFn (b : Byte) (s : State) : (storeByte b s).reqFn = s.reqFn := rfl
@[simp] theorem storeByte_reqMode (b : Byte) (s : State) : (storeByte b s).reqMode = s.reqMode := rfl
@[simp] theorem storeByte_reqCount (b : Byte) (s : State) : (storeByte b s).reqCount = s.reqCount := rfl
@[simp] theorem storeByte_result (b : Byte) (s : State) : (storeByte b s).result = s.result := rfl
@[simp] theorem storeByte_resultLen (b : Byte) (s : State) : (storeByte b s).resultLen = s.resultLen := rfl
@[simp] theorem storeByte_seq (b : Byte) (s : State) : (storeByte b s).seq = s.seq := rfl
@[simp] theorem storeByte_fails (b : Byte) (s : State) : (storeByte b s).fails = s.fails := rfl
@[simp] theorem storeByte_done (b : Byte) (s : State) : (storeByte b s).done = s.done := rfl
@[simp] theorem storeByte_usage (b : Byte) (s : State) : (storeByte b s).usage = s.usage := rfl
@[simp] theorem storeByte_fatal (b : Byte) (s : State) : (storeByte b s).fatal = s.fatal := rfl
@[simp] theorem storeByte_firstWriteDone (b : Byte) (s : State) : (storeByte b s).firstWriteDone = s.firstWriteDone := rfl
@[simp] theorem storeByte_lastFault (b : Byte) (s : State) : (storeByte b s).lastFault = s.lastFault := rfl
@[simp] theorem storeByte_excCode (b : Byte) (s : State) : (storeByte b s).excCode = s.excCode := rfl
@[simp] theorem storeByte_fatalCause (b : Byte) (s : State) : (storeByte b s).fatalCause = s.fatalCause := rfl
@[simp] theorem storeByte_devAddr (b : Byte) (s : State) : (storeByte b s).devAddr = s.devAddr := rfl
@[simp] theorem storeByte_maxAttempts (b : Byte) (s : State) : (storeByte b s).maxAttempts = s.maxAttempts := rfl
@[simp] theorem storeByte_rxTimeout (b : Byte) (s : State) : (storeByte b s).rxTimeout = s.rxTimeout := rfl
@[simp] theorem storeByte_writeDelay (b : Byte) (s : State) : (storeByte b s).writeDelay = s.writeDelay := rfl
@[simp] theorem storeByte_tp (b : Byte) (s : State) : (storeByte b s).tp = s.tp := rfl
@[simp] theorem storeByte_port (b : Byte) (s : State) : (storeByte b s).port = s.port := rfl
@[simp] theorem storeByte_ret (b : Byte) (s : State) : (storeByte b s).ret = s.ret := rfl

/-! ### setNeed -/

@[simp] theorem setNeed_crc (m : Mode) (s : State) : (setNeed m s).crc = s.crc := rfl
@[simp] theorem setNeed_txbuf (m : Mode) (s : State) : (setNeed m s).txbuf = s.txbuf := rfl
@[simp] theorem setNeed_txlen (m : Mode) (s : State) : (setNeed m s).txlen = s.txlen := rfl
@[simp] theorem setNeed_rxbuf (m : Mode) (s : State) : (setNeed m s).rxbuf = s.rxbuf := rfl
@[simp] theorem setNeed_rxlen (m : Mode) (s : State) : (setNeed m s).rxlen = s.rxlen := rfl
@[simp] theorem setNeed_rxneed (m : Mode) (s : State) : (setNeed m s).rxneed = rxNeed (Memory.read s.rxbuf 1) (Memory.read s.rxbuf 2) m := rfl
@[simp] theorem setNeed_reqFn (m : Mode) (s : State) : (setNeed m s).reqFn = s.reqFn := rfl
@[simp] theorem setNeed_reqMode (m : Mode) (s : State) : (setNeed m s).reqMode = s.reqMode := rfl
@[simp] theorem setNeed_reqCount (m : Mode) (s : State) : (setNeed m s).reqCount = s.reqCount := rfl
@[simp] theorem setNeed_result (m : Mode) (s : State) : (setNeed m s).result = s.result := rfl
@[simp] theorem setNeed_resultLen (m : Mode) (s : State) : (setNeed m s).resultLen = s.resultLen := rfl
@[simp] theorem setNeed_seq (m : Mode) (s : State) : (setNeed m s).seq = s.seq := rfl
@[simp] theorem setNeed_fails (m : Mode) (s : State) : (setNeed m s).fails = s.fails := rfl
@[simp] theorem setNeed_done (m : Mode) (s : State) : (setNeed m s).done = s.done := rfl
@[simp] theorem setNeed_usage (m : Mode) (s : State) : (setNeed m s).usage = s.usage := rfl
@[simp] theorem setNeed_fatal (m : Mode) (s : State) : (setNeed m s).fatal = s.fatal := rfl
@[simp] theorem setNeed_firstWriteDone (m : Mode) (s : State) : (setNeed m s).firstWriteDone = s.firstWriteDone := rfl
@[simp] theorem setNeed_lastFault (m : Mode) (s : State) : (setNeed m s).lastFault = s.lastFault := rfl
@[simp] theorem setNeed_excCode (m : Mode) (s : State) : (setNeed m s).excCode = s.excCode := rfl
@[simp] theorem setNeed_fatalCause (m : Mode) (s : State) : (setNeed m s).fatalCause = s.fatalCause := rfl
@[simp] theorem setNeed_devAddr (m : Mode) (s : State) : (setNeed m s).devAddr = s.devAddr := rfl
@[simp] theorem setNeed_maxAttempts (m : Mode) (s : State) : (setNeed m s).maxAttempts = s.maxAttempts := rfl
@[simp] theorem setNeed_rxTimeout (m : Mode) (s : State) : (setNeed m s).rxTimeout = s.rxTimeout := rfl
@[simp] theorem setNeed_writeDelay (m : Mode) (s : State) : (setNeed m s).writeDelay = s.writeDelay := rfl
@[simp] theorem setNeed_tp (m : Mode) (s : State) : (setNeed m s).tp = s.tp := rfl
@[simp] theorem setNeed_port (m : Mode) (s : State) : (setNeed m s).port = s.port := rfl
@[simp] theorem setNeed_ret (m : Mode) (s : State) : (setNeed m s).ret = s.ret := rfl

/-! ### completeCommand -/

@[simp] theorem completeCommand_crc (ws : List Word) (s : State) : (completeCommand ws s).crc = s.crc := rfl
@[simp] theorem completeCommand_txbuf (ws : List Word) (s : State) : (completeCommand ws s).txbuf = s.txbuf := rfl
@[simp] theorem completeCommand_txlen (ws : List Word) (s : State) : (completeCommand ws s).txlen = s.txlen := rfl
@[simp] theorem completeCommand_rxbuf (ws : List Word) (s : State) : (completeCommand ws s).rxbuf = s.rxbuf := rfl
@[simp] theorem completeCommand_rxlen (ws : List Word) (s : State) : (completeCommand ws s).rxlen = s.rxlen := rfl
@[simp] theorem completeCommand_rxneed (ws : List Word) (s : State) : (completeCommand ws s).rxneed = s.rxneed := rfl
@[simp] theorem completeCommand_reqFn (ws : List Word) (s : State) : (completeCommand ws s).reqFn = s.reqFn := rfl
@[simp] theorem completeCommand_reqMode (ws : List Word) (s : State) : (completeCommand ws s).reqMode = s.reqMode := rfl
@[simp] theorem completeCommand_reqCount (ws : List Word) (s : State) : (completeCommand ws s).reqCount = s.reqCount := rfl
@[simp] theorem completeCommand_result (ws : List Word) (s : State) : (completeCommand ws s).result = Memory.writeList s.result 0 ws := rfl
@[simp] theorem completeCommand_resultLen (ws : List Word) (s : State) : (completeCommand ws s).resultLen = ws.length := rfl
@[simp] theorem completeCommand_seq (ws : List Word) (s : State) : (completeCommand ws s).seq = .idle := rfl
@[simp] theorem completeCommand_fails (ws : List Word) (s : State) : (completeCommand ws s).fails = s.fails := rfl
@[simp] theorem completeCommand_done (ws : List Word) (s : State) : (completeCommand ws s).done = true := rfl
@[simp] theorem completeCommand_usage (ws : List Word) (s : State) : (completeCommand ws s).usage = s.usage := rfl
@[simp] theorem completeCommand_fatal (ws : List Word) (s : State) : (completeCommand ws s).fatal = s.fatal := rfl
@[simp] theorem completeCommand_firstWriteDone (ws : List Word) (s : State) : (completeCommand ws s).firstWriteDone = s.firstWriteDone := rfl
@[simp] theorem completeCommand_lastFault (ws : List Word) (s : State) : (completeCommand ws s).lastFault = s.lastFault := rfl
@[simp] theorem completeCommand_excCode (ws : List Word) (s : State) : (completeCommand ws s).excCode = s.excCode := rfl
@[simp] theorem completeCommand_fatalCause (ws : List Word) (s : State) : (completeCommand ws s).fatalCause = s.fatalCause := rfl
@[simp] theorem completeCommand_devAddr (ws : List Word) (s : State) : (completeCommand ws s).devAddr = s.devAddr := rfl
@[simp] theorem completeCommand_maxAttempts (ws : List Word) (s : State) : (completeCommand ws s).maxAttempts = s.maxAttempts := rfl
@[simp] theorem completeCommand_rxTimeout (ws : List Word) (s : State) : (completeCommand ws s).rxTimeout = s.rxTimeout := rfl
@[simp] theorem completeCommand_writeDelay (ws : List Word) (s : State) : (completeCommand ws s).writeDelay = s.writeDelay := rfl
@[simp] theorem completeCommand_tp (ws : List Word) (s : State) : (completeCommand ws s).tp = s.tp := rfl
@[simp] theorem completeCommand_port (ws : List Word) (s : State) : (completeCommand ws s).port = s.port := rfl
@[simp] theorem completeCommand_ret (ws : List Word) (s : State) : (completeCommand ws s).ret = s.ret := rfl

/-! ### setInBuf -/

@[simp] theorem setInBuf_crc (bs : List Byte) (s : State) : (setInBuf bs s).crc = s.crc := rfl
@[simp] theorem setInBuf_txbuf (bs : List Byte) (s : State) : (setInBuf bs s).txbuf = s.txbuf := rfl
@[simp] theorem setInBuf_txlen (bs : List Byte) (s : State) : (setInBuf bs s).txlen = s.txlen := rfl
@[simp] theorem setInBuf_rxbuf (bs : List Byte) (s : State) : (setInBuf bs s).rxbuf = s.rxbuf := rfl
@[simp] theorem setInBuf_rxlen (bs : List Byte) (s : State) : (setInBuf bs s).rxlen = s.rxlen := rfl
@[simp] theorem setInBuf_rxneed (bs : List Byte) (s : State) : (setInBuf bs s).rxneed = s.rxneed := rfl
@[simp] theorem setInBuf_reqFn (bs : List Byte) (s : State) : (setInBuf bs s).reqFn = s.reqFn := rfl
@[simp] theorem setInBuf_reqMode (bs : List Byte) (s : State) : (setInBuf bs s).reqMode = s.reqMode := rfl
@[simp] theorem setInBuf_reqCount (bs : List Byte) (s : State) : (setInBuf bs s).reqCount = s.reqCount := rfl
@[simp] theorem setInBuf_result (bs : List Byte) (s : State) : (setInBuf bs s).result = s.result := rfl
@[simp] theorem setInBuf_resultLen (bs : List Byte) (s : State) : (setInBuf bs s).resultLen = s.resultLen := rfl
@[simp] theorem setInBuf_seq (bs : List Byte) (s : State) : (setInBuf bs s).seq = s.seq := rfl
@[simp] theorem setInBuf_fails (bs : List Byte) (s : State) : (setInBuf bs s).fails = s.fails := rfl
@[simp] theorem setInBuf_done (bs : List Byte) (s : State) : (setInBuf bs s).done = s.done := rfl
@[simp] theorem setInBuf_usage (bs : List Byte) (s : State) : (setInBuf bs s).usage = s.usage := rfl
@[simp] theorem setInBuf_fatal (bs : List Byte) (s : State) : (setInBuf bs s).fatal = s.fatal := rfl
@[simp] theorem setInBuf_firstWriteDone (bs : List Byte) (s : State) : (setInBuf bs s).firstWriteDone = s.firstWriteDone := rfl
@[simp] theorem setInBuf_lastFault (bs : List Byte) (s : State) : (setInBuf bs s).lastFault = s.lastFault := rfl
@[simp] theorem setInBuf_excCode (bs : List Byte) (s : State) : (setInBuf bs s).excCode = s.excCode := rfl
@[simp] theorem setInBuf_fatalCause (bs : List Byte) (s : State) : (setInBuf bs s).fatalCause = s.fatalCause := rfl
@[simp] theorem setInBuf_devAddr (bs : List Byte) (s : State) : (setInBuf bs s).devAddr = s.devAddr := rfl
@[simp] theorem setInBuf_maxAttempts (bs : List Byte) (s : State) : (setInBuf bs s).maxAttempts = s.maxAttempts := rfl
@[simp] theorem setInBuf_rxTimeout (bs : List Byte) (s : State) : (setInBuf bs s).rxTimeout = s.rxTimeout := rfl
@[simp] theorem setInBuf_writeDelay (bs : List Byte) (s : State) : (setInBuf bs s).writeDelay = s.writeDelay := rfl
@[simp] theorem setInBuf_port (bs : List Byte) (s : State) : (setInBuf bs s).port = s.port := rfl
@[simp] theorem setInBuf_ret (bs : List Byte) (s : State) : (setInBuf bs s).ret = s.ret := rfl

/-! ### logByte -/

@[simp] theorem logByte_crc (b : Byte) (s : State) : (logByte b s).crc = s.crc := rfl
@[simp] theorem logByte_txbuf (b : Byte) (s : State) : (logByte b s).txbuf = s.txbuf := rfl
@[simp] theorem logByte_txlen (b : Byte) (s : State) : (logByte b s).txlen = s.txlen := rfl
@[simp] theorem logByte_rxbuf (b : Byte) (s : State) : (logByte b s).rxbuf = s.rxbuf := rfl
@[simp] theorem logByte_rxlen (b : Byte) (s : State) : (logByte b s).rxlen = s.rxlen := rfl
@[simp] theorem logByte_rxneed (b : Byte) (s : State) : (logByte b s).rxneed = s.rxneed := rfl
@[simp] theorem logByte_reqFn (b : Byte) (s : State) : (logByte b s).reqFn = s.reqFn := rfl
@[simp] theorem logByte_reqMode (b : Byte) (s : State) : (logByte b s).reqMode = s.reqMode := rfl
@[simp] theorem logByte_reqCount (b : Byte) (s : State) : (logByte b s).reqCount = s.reqCount := rfl
@[simp] theorem logByte_result (b : Byte) (s : State) : (logByte b s).result = s.result := rfl
@[simp] theorem logByte_resultLen (b : Byte) (s : State) : (logByte b s).resultLen = s.resultLen := rfl
@[simp] theorem logByte_seq (b : Byte) (s : State) : (logByte b s).seq = s.seq := rfl
@[simp] theorem logByte_fails (b : Byte) (s : State) : (logByte b s).fails = s.fails := rfl
@[simp] theorem logByte_done (b : Byte) (s : State) : (logByte b s).done = s.done := rfl
@[simp] theorem logByte_usage (b : Byte) (s : State) : (logByte b s).usage = s.usage := rfl
@[simp] theorem logByte_fatal (b : Byte) (s : State) : (logByte b s).fatal = s.fatal := rfl
@[simp] theorem logByte_firstWriteDone (b : Byte) (s : State) : (logByte b s).firstWriteDone = s.firstWriteDone := rfl
@[simp] theorem logByte_lastFault (b : Byte) (s : State) : (logByte b s).lastFault = s.lastFault := rfl
@[simp] theorem logByte_excCode (b : Byte) (s : State) : (logByte b s).excCode = s.excCode := rfl
@[simp] theorem logByte_fatalCause (b : Byte) (s : State) : (logByte b s).fatalCause = s.fatalCause := rfl
@[simp] theorem logByte_devAddr (b : Byte) (s : State) : (logByte b s).devAddr = s.devAddr := rfl
@[simp] theorem logByte_maxAttempts (b : Byte) (s : State) : (logByte b s).maxAttempts = s.maxAttempts := rfl
@[simp] theorem logByte_rxTimeout (b : Byte) (s : State) : (logByte b s).rxTimeout = s.rxTimeout := rfl
@[simp] theorem logByte_writeDelay (b : Byte) (s : State) : (logByte b s).writeDelay = s.writeDelay := rfl
@[simp] theorem logByte_tp (b : Byte) (s : State) : (logByte b s).tp = Transport.record (.recvByte (.byte b)) s.tp := rfl
@[simp] theorem logByte_port (b : Byte) (s : State) : (logByte b s).port = s.port := rfl
@[simp] theorem logByte_ret (b : Byte) (s : State) : (logByte b s).ret = s.ret := rfl

/-! ### delayPhase -/

@[simp] theorem delayPhase_crc (s : State) : (delayPhase s).crc = s.crc := rfl
@[simp] theorem delayPhase_txbuf (s : State) : (delayPhase s).txbuf = s.txbuf := rfl
@[simp] theorem delayPhase_txlen (s : State) : (delayPhase s).txlen = s.txlen := rfl
@[simp] theorem delayPhase_rxbuf (s : State) : (delayPhase s).rxbuf = s.rxbuf := rfl
@[simp] theorem delayPhase_rxlen (s : State) : (delayPhase s).rxlen = s.rxlen := rfl
@[simp] theorem delayPhase_rxneed (s : State) : (delayPhase s).rxneed = s.rxneed := rfl
@[simp] theorem delayPhase_reqFn (s : State) : (delayPhase s).reqFn = s.reqFn := rfl
@[simp] theorem delayPhase_reqMode (s : State) : (delayPhase s).reqMode = s.reqMode := rfl
@[simp] theorem delayPhase_reqCount (s : State) : (delayPhase s).reqCount = s.reqCount := rfl
@[simp] theorem delayPhase_result (s : State) : (delayPhase s).result = s.result := rfl
@[simp] theorem delayPhase_resultLen (s : State) : (delayPhase s).resultLen = s.resultLen := rfl
@[simp] theorem delayPhase_seq (s : State) : (delayPhase s).seq = .flush := rfl
@[simp] theorem delayPhase_fails (s : State) : (delayPhase s).fails = s.fails := rfl
@[simp] theorem delayPhase_done (s : State) : (delayPhase s).done = s.done := rfl
@[simp] theorem delayPhase_usage (s : State) : (delayPhase s).usage = s.usage := rfl
@[simp] theorem delayPhase_fatal (s : State) : (delayPhase s).fatal = s.fatal := rfl
@[simp] theorem delayPhase_firstWriteDone (s : State) : (delayPhase s).firstWriteDone = true := rfl
@[simp] theorem delayPhase_lastFault (s : State) : (delayPhase s).lastFault = s.lastFault := rfl
@[simp] theorem delayPhase_excCode (s : State) : (delayPhase s).excCode = s.excCode := rfl
@[simp] theorem delayPhase_fatalCause (s : State) : (delayPhase s).fatalCause = s.fatalCause := rfl
@[simp] theorem delayPhase_devAddr (s : State) : (delayPhase s).devAddr = s.devAddr := rfl
@[simp] theorem delayPhase_maxAttempts (s : State) : (delayPhase s).maxAttempts = s.maxAttempts := rfl
@[simp] theorem delayPhase_rxTimeout (s : State) : (delayPhase s).rxTimeout = s.rxTimeout := rfl
@[simp] theorem delayPhase_writeDelay (s : State) : (delayPhase s).writeDelay = s.writeDelay := rfl
@[simp] theorem delayPhase_tp (s : State) : (delayPhase s).tp = s.tp := rfl
@[simp] theorem delayPhase_port (s : State) : (delayPhase s).port = s.port := rfl
@[simp] theorem delayPhase_ret (s : State) : (delayPhase s).ret = s.ret := rfl

/-! ### flushPhase -/

@[simp] theorem flushPhase_crc (s : State) : (flushPhase s).crc = s.crc := rfl
@[simp] theorem flushPhase_txbuf (s : State) : (flushPhase s).txbuf = s.txbuf := rfl
@[simp] theorem flushPhase_txlen (s : State) : (flushPhase s).txlen = s.txlen := rfl
@[simp] theorem flushPhase_rxbuf (s : State) : (flushPhase s).rxbuf = s.rxbuf := rfl
@[simp] theorem flushPhase_rxlen (s : State) : (flushPhase s).rxlen = 0 := rfl
@[simp] theorem flushPhase_rxneed (s : State) : (flushPhase s).rxneed = s.rxneed := rfl
@[simp] theorem flushPhase_reqFn (s : State) : (flushPhase s).reqFn = s.reqFn := rfl
@[simp] theorem flushPhase_reqMode (s : State) : (flushPhase s).reqMode = s.reqMode := rfl
@[simp] theorem flushPhase_reqCount (s : State) : (flushPhase s).reqCount = s.reqCount := rfl
@[simp] theorem flushPhase_result (s : State) : (flushPhase s).result = s.result := rfl
@[simp] theorem flushPhase_resultLen (s : State) : (flushPhase s).resultLen = s.resultLen := rfl
@[simp] theorem flushPhase_seq (s : State) : (flushPhase s).seq = .send := rfl
@[simp] theorem flushPhase_fails (s : State) : (flushPhase s).fails = s.fails := rfl
@[simp] theorem flushPhase_done (s : State) : (flushPhase s).done = s.done := rfl
@[simp] theorem flushPhase_usage (s : State) : (flushPhase s).usage = s.usage := rfl
@[simp] theorem flushPhase_fatal (s : State) : (flushPhase s).fatal = s.fatal := rfl
@[simp] theorem flushPhase_firstWriteDone (s : State) : (flushPhase s).firstWriteDone = s.firstWriteDone := rfl
@[simp] theorem flushPhase_lastFault (s : State) : (flushPhase s).lastFault = s.lastFault := rfl
@[simp] theorem flushPhase_excCode (s : State) : (flushPhase s).excCode = s.excCode := rfl
@[simp] theorem flushPhase_fatalCause (s : State) : (flushPhase s).fatalCause = s.fatalCause := rfl
@[simp] theorem flushPhase_devAddr (s : State) : (flushPhase s).devAddr = s.devAddr := rfl
@[simp] theorem flushPhase_maxAttempts (s : State) : (flushPhase s).maxAttempts = s.maxAttempts := rfl
@[simp] theorem flushPhase_rxTimeout (s : State) : (flushPhase s).rxTimeout = s.rxTimeout := rfl
@[simp] theorem flushPhase_writeDelay (s : State) : (flushPhase s).writeDelay = s.writeDelay := rfl
@[simp] theorem flushPhase_tp (s : State) : (flushPhase s).tp = Transport.flushInput s.tp := rfl
@[simp] theorem flushPhase_port (s : State) : (flushPhase s).port = s.port := rfl
@[simp] theorem flushPhase_ret (s : State) : (flushPhase s).ret = s.ret := rfl

/-! ### beginAttempt -/

@[simp] theorem beginAttempt_crc (s : State) : (beginAttempt s).crc = s.crc := rfl
@[simp] theorem beginAttempt_txbuf (s : State) : (beginAttempt s).txbuf = s.txbuf := rfl
@[simp] theorem beginAttempt_txlen (s : State) : (beginAttempt s).txlen = s.txlen := rfl
@[simp] theorem beginAttempt_rxbuf (s : State) : (beginAttempt s).rxbuf = s.rxbuf := rfl
@[simp] theorem beginAttempt_rxlen (s : State) : (beginAttempt s).rxlen = 0 := rfl
@[simp] theorem beginAttempt_rxneed (s : State) : (beginAttempt s).rxneed = s.rxneed := rfl
@[simp] theorem beginAttempt_reqFn (s : State) : (beginAttempt s).reqFn = s.reqFn := rfl
@[simp] theorem beginAttempt_reqMode (s : State) : (beginAttempt s).reqMode = s.reqMode := rfl
@[simp] theorem beginAttempt_reqCount (s : State) : (beginAttempt s).reqCount = s.reqCount := rfl
@[simp] theorem beginAttempt_result (s : State) : (beginAttempt s).result = s.result := rfl
@[simp] theorem beginAttempt_resultLen (s : State) : (beginAttempt s).resultLen = s.resultLen := rfl
@[simp] theorem beginAttempt_seq (s : State) : (beginAttempt s).seq = s.seq := rfl
@[simp] theorem beginAttempt_fails (s : State) : (beginAttempt s).fails = s.fails := rfl
@[simp] theorem beginAttempt_done (s : State) : (beginAttempt s).done = s.done := rfl
@[simp] theorem beginAttempt_usage (s : State) : (beginAttempt s).usage = s.usage := rfl
@[simp] theorem beginAttempt_fatal (s : State) : (beginAttempt s).fatal = s.fatal := rfl
@[simp] theorem beginAttempt_firstWriteDone (s : State) : (beginAttempt s).firstWriteDone = s.firstWriteDone := rfl
@[simp] theorem beginAttempt_lastFault (s : State) : (beginAttempt s).lastFault = s.lastFault := rfl
@[simp] theorem beginAttempt_excCode (s : State) : (beginAttempt s).excCode = s.excCode := rfl
@[simp] theorem beginAttempt_fatalCause (s : State) : (beginAttempt s).fatalCause = s.fatalCause := rfl
@[simp] theorem beginAttempt_devAddr (s : State) : (beginAttempt s).devAddr = s.devAddr := rfl
@[simp] theorem beginAttempt_maxAttempts (s : State) : (beginAttempt s).maxAttempts = s.maxAttempts := rfl
@[simp] theorem beginAttempt_rxTimeout (s : State) : (beginAttempt s).rxTimeout = s.rxTimeout := rfl
@[simp] theorem beginAttempt_writeDelay (s : State) : (beginAttempt s).writeDelay = s.writeDelay := rfl
@[simp] theorem beginAttempt_tp (s : State) : (beginAttempt s).tp = Transport.flushInput s.tp := rfl
@[simp] theorem beginAttempt_port (s : State) : (beginAttempt s).port = s.port := rfl
@[simp] theorem beginAttempt_ret (s : State) : (beginAttempt s).ret = s.ret := rfl

/-! ### startRequest -/

@[simp] theorem startRequest_crc (fn : Byte) (p : List Byte) (m : Mode) (k : Word) (s : State) : (startRequest fn p m k s).crc = crcOfBuild (requestFrame s.devAddr fn p) := rfl
@[simp] theorem startRequest_txbuf (fn : Byte) (p : List Byte) (m : Mode) (k : Word) (s : State) : (startRequest fn p m k s).txbuf = Memory.writeList s.txbuf 0 (requestFrame s.devAddr fn p) := rfl
@[simp] theorem startRequest_txlen (fn : Byte) (p : List Byte) (m : Mode) (k : Word) (s : State) : (startRequest fn p m k s).txlen = (requestFrame s.devAddr fn p).length := rfl
@[simp] theorem startRequest_rxbuf (fn : Byte) (p : List Byte) (m : Mode) (k : Word) (s : State) : (startRequest fn p m k s).rxbuf = s.rxbuf := rfl
@[simp] theorem startRequest_rxlen (fn : Byte) (p : List Byte) (m : Mode) (k : Word) (s : State) : (startRequest fn p m k s).rxlen = s.rxlen := rfl
@[simp] theorem startRequest_rxneed (fn : Byte) (p : List Byte) (m : Mode) (k : Word) (s : State) : (startRequest fn p m k s).rxneed = s.rxneed := rfl
@[simp] theorem startRequest_reqFn (fn : Byte) (p : List Byte) (m : Mode) (k : Word) (s : State) : (startRequest fn p m k s).reqFn = fn := rfl
@[simp] theorem startRequest_reqMode (fn : Byte) (p : List Byte) (m : Mode) (k : Word) (s : State) : (startRequest fn p m k s).reqMode = m := rfl
@[simp] theorem startRequest_reqCount (fn : Byte) (p : List Byte) (m : Mode) (k : Word) (s : State) : (startRequest fn p m k s).reqCount = if m = .selfdesc then k else s.reqCount := rfl
@[simp] theorem startRequest_result (fn : Byte) (p : List Byte) (m : Mode) (k : Word) (s : State) : (startRequest fn p m k s).result = s.result := rfl
@[simp] theorem startRequest_resultLen (fn : Byte) (p : List Byte) (m : Mode) (k : Word) (s : State) : (startRequest fn p m k s).resultLen = 0 := rfl
@[simp] theorem startRequest_seq (fn : Byte) (p : List Byte) (m : Mode) (k : Word) (s : State) : (startRequest fn p m k s).seq = if writeClass fn && !s.firstWriteDone then .delay else .flush := rfl
@[simp] theorem startRequest_fails (fn : Byte) (p : List Byte) (m : Mode) (k : Word) (s : State) : (startRequest fn p m k s).fails = 0 := rfl
@[simp] theorem startRequest_done (fn : Byte) (p : List Byte) (m : Mode) (k : Word) (s : State) : (startRequest fn p m k s).done = false := rfl
@[simp] theorem startRequest_usage (fn : Byte) (p : List Byte) (m : Mode) (k : Word) (s : State) : (startRequest fn p m k s).usage = false := rfl
@[simp] theorem startRequest_fatal (fn : Byte) (p : List Byte) (m : Mode) (k : Word) (s : State) : (startRequest fn p m k s).fatal = s.fatal := rfl
@[simp] theorem startRequest_firstWriteDone (fn : Byte) (p : List Byte) (m : Mode) (k : Word) (s : State) : (startRequest fn p m k s).firstWriteDone = s.firstWriteDone := rfl
@[simp] theorem startRequest_lastFault (fn : Byte) (p : List Byte) (m : Mode) (k : Word) (s : State) : (startRequest fn p m k s).lastFault = .none := rfl
@[simp] theorem startRequest_excCode (fn : Byte) (p : List Byte) (m : Mode) (k : Word) (s : State) : (startRequest fn p m k s).excCode = s.excCode := rfl
@[simp] theorem startRequest_fatalCause (fn : Byte) (p : List Byte) (m : Mode) (k : Word) (s : State) : (startRequest fn p m k s).fatalCause = s.fatalCause := rfl
@[simp] theorem startRequest_devAddr (fn : Byte) (p : List Byte) (m : Mode) (k : Word) (s : State) : (startRequest fn p m k s).devAddr = s.devAddr := rfl
@[simp] theorem startRequest_maxAttempts (fn : Byte) (p : List Byte) (m : Mode) (k : Word) (s : State) : (startRequest fn p m k s).maxAttempts = s.maxAttempts := rfl
@[simp] theorem startRequest_rxTimeout (fn : Byte) (p : List Byte) (m : Mode) (k : Word) (s : State) : (startRequest fn p m k s).rxTimeout = s.rxTimeout := rfl
@[simp] theorem startRequest_writeDelay (fn : Byte) (p : List Byte) (m : Mode) (k : Word) (s : State) : (startRequest fn p m k s).writeDelay = s.writeDelay := rfl
@[simp] theorem startRequest_tp (fn : Byte) (p : List Byte) (m : Mode) (k : Word) (s : State) : (startRequest fn p m k s).tp = s.tp := rfl
@[simp] theorem startRequest_port (fn : Byte) (p : List Byte) (m : Mode) (k : Word) (s : State) : (startRequest fn p m k s).port = s.port := rfl
@[simp] theorem startRequest_ret (fn : Byte) (p : List Byte) (m : Mode) (k : Word) (s : State) : (startRequest fn p m k s).ret = s.ret := rfl

/-! ### The transport part -/

@[simp] theorem setInBuf_inBuf (bs : List Byte) (s : State) : (setInBuf bs s).tp.inBuf = bs := rfl
@[simp] theorem setInBuf_turns (bs : List Byte) (s : State) : (setInBuf bs s).tp.turns = s.tp.turns := rfl
@[simp] theorem setInBuf_draws (bs : List Byte) (s : State) : (setInBuf bs s).tp.draws = s.tp.draws := rfl
@[simp] theorem setInBuf_bus (bs : List Byte) (s : State) : (setInBuf bs s).tp.bus = s.tp.bus := rfl
@[simp] theorem record_inBuf (c : TCall) (tp : Transport) : (Transport.record c tp).inBuf = tp.inBuf := rfl
@[simp] theorem record_turns (c : TCall) (tp : Transport) : (Transport.record c tp).turns = tp.turns := rfl
@[simp] theorem record_draws (c : TCall) (tp : Transport) : (Transport.record c tp).draws = tp.draws := rfl
@[simp] theorem record_bus (c : TCall) (tp : Transport) : (Transport.record c tp).bus = tp.bus ++ [c] := rfl

end Sys2Proof.Machine
end

