-- ==== Sys2Proof/Laws/Sequencer.lean ====
section
/-! SUPPORT. What the shared operations can do, once each: acceptance, a failed attempt, the phases, the arrival of a
frame, the loop form. -/

namespace Sys2Proof.Machine

/-! ### Failures -/

@[simp] theorem recordFailure_fails (f : Failure) (s : State) : (recordFailure f s).fails = s.fails + 1 := by
  cases f <;> rfl

@[simp] theorem recordFailure_lastFault (f : Failure) (s : State) : (recordFailure f s).lastFault = f.cause := by
  cases f <;> rfl

/-- The entry of a failed attempt writes `LAST_FAULT`, `EXC_CODE` and `FAILS` and nothing else. -/
theorem recordFailure_frame (f : Failure) (s : State) :
    recordFailure f s = { s with
      lastFault := f.cause, excCode := (recordFailure f s).excCode, fails := s.fails + 1 } := by
  cases f <;> rfl

/-- A failed attempt ends in `FATAL` or in the next attempt. -/
theorem failAttempt_cases (f : Failure) (s : State) :
    (s.maxAttempts ≤ s.fails + 1 ∧ failAttempt f s = enterFatal .exhaustedRetries (recordFailure f s)) ∨
    (s.fails + 1 < s.maxAttempts ∧ failAttempt f s = { recordFailure f s with seq := .flush }) := by
  have hm : (recordFailure f s).maxAttempts = s.maxAttempts := by cases f <;> rfl
  have hf : (recordFailure f s).fails = s.fails + 1 := by simp
  unfold failAttempt retryOrFatal
  rw [hm, hf]
  split
  · exact .inl ⟨by assumption, rfl⟩
  · exact .inr ⟨by omega, by cases f <;> rfl⟩

/-! ### Acceptance -/

/-- What acceptance can do (R151). -/
theorem acceptCommand_cases (fn : Byte) (a : Int) (vals : List Number) (p : List Byte) (k : Word) (s : State) :
    (s.seq ≠ .idle ∧ acceptCommand fn a vals p k s = s) ∨
    (s.seq = .idle ∧ ∃ c, usageCheck fn a vals = some c ∧ acceptCommand fn a vals p k s = usageFault c s) ∨
    (s.seq = .idle ∧ usageCheck fn a vals = none ∧
      acceptCommand fn a vals p k s = startRequest fn p (modeOf fn) k s) := by
  unfold acceptCommand
  by_cases h : s.seq = .idle
  · rw [if_pos h]
    cases hc : usageCheck fn a vals with
    | some c => exact .inr (.inl ⟨h, c, rfl, rfl⟩)
    | none => exact .inr (.inr ⟨h, rfl, rfl⟩)
  · exact .inl ⟨h, if_neg h⟩

/-- A request that passes the checks has a legal function code, an address that fits, and values that fit. -/
theorem usageCheck_eq_none {fn : Byte} {a : Int} {vals : List Number} (h : usageCheck fn a vals = none) :
    legalFn fn = true ∧ 0 ≤ a ∧ a ≤ 65535 ∧ (fn = fnWMulti → vals.length ≤ 127) ∧
      ∀ v ∈ vals, 0 ≤ toWord v ∧ toWord v ≤ 65535 := by
  unfold usageCheck at h
  split at h
  · cases h
  split at h
  · cases h
  split at h
  · cases h
  split at h
  · cases h
  split at h
  · cases h
  rename_i h1 h2 h3 h4 h5
  refine ⟨by simpa using h1, by omega, by omega, fun hf => ?_, fun v hv => ?_⟩
  · have : ¬ 127 < vals.length := fun hl => h4 ⟨hf, hl⟩
    omega
  · have h5' : vals.any valueOutOfRange = false := by simpa using h5
    have := List.any_eq_false.mp h5' v hv
    simp only [valueOutOfRange, Bool.or_eq_true, decide_eq_true_eq, not_or] at this
    omega

/-! ### Phases -/

/-- A byte is received only below the capacity, and what then follows. -/
theorem receiveByte_eq {b : Byte} {s t : State} (h : receiveByte b s = .next t) :
    s.rxlen < 260 ∧ t = afterStore (storeByte b s) := by
  unfold receiveByte at h
  split at h
  · next hl => exact ⟨hl, (Host.Outcome.next.inj h).symm⟩
  · cases h

/-- One step of the sequencer, by phase. -/
theorem tick_cases {s t : State} (h : tick s = .next t) :
    (s.busy = false ∧ t = s) ∨
    (s.seq = .delay ∧ t = delayPhase s) ∨
    (s.seq = .flush ∧ t = flushPhase s) ∨
    (s.seq = .send ∧ t = sendPhase s) ∨
    (s.receiving = true ∧ recvPhase s = .next t) ∨
    (s.seq = .check ∧ t = checkPhase s) := by
  unfold tick at h
  cases hs : s.seq <;> rw [hs] at h <;>
    simp_all [State.busy, State.receiving]

/-- A step of a receive phase: a byte, a timeout, or the transport's fatal fault. -/
theorem recvPhase_cases {s t : State} (h : recvPhase s = .next t) :
    (∃ b, (Transport.recvByte s.tp).1 = .byte b ∧ s.rxlen < 260 ∧
      t = afterStore (storeByte b { s with tp := (Transport.recvByte s.tp).2 })) ∨
    t = failAttempt (.plain .transportTimeout) { s with tp := (Transport.recvByte s.tp).2 } ∨
    t = enterFatal .transportFatal { s with tp := (Transport.recvByte s.tp).2 } := by
  unfold recvPhase afterRecv at h
  simp only at h
  split at h
  · next b hb =>
    have := receiveByte_eq h
    exact .inl ⟨b, hb, this.1, this.2⟩
  · exact .inr (.inl (Host.Outcome.next.inj h).symm)
  · exact .inr (.inr (Host.Outcome.next.inj h).symm)

/-- What the verdict of `CHECK` makes of the attempt. -/
theorem checkPhase_cases (s : State) :
    (∃ ws, s.verdict = .ok ws ∧ checkPhase s = completeCommand ws { s with crc := crc16 s.rxFrame }) ∨
    (∃ f, checkPhase s = failAttempt f { s with crc := crc16 s.rxFrame }) := by
  unfold checkPhase afterCheck
  cases hv : s.verdict with
  | ok ws => exact .inl ⟨ws, rfl, rfl⟩
  | frameFault c => exact .inr ⟨.plain c, rfl⟩
  | deviceException c => exact .inr ⟨.exception c, rfl⟩

/-- The answer of the send decides what follows. -/
theorem sendPhase_cases (s : State) :
    sendPhase s = { s with tp := (Transport.send s.txFrame s.tp).2, seq := .recvHead } ∨
    sendPhase s = failAttempt (.plain .transportError) { s with tp := (Transport.send s.txFrame s.tp).2 } ∨
    sendPhase s = enterFatal .transportFatal { s with tp := (Transport.send s.txFrame s.tp).2 } := by
  unfold sendPhase afterSend
  simp only
  cases (Transport.send s.txFrame s.tp).1
  · exact .inl rfl
  · exact .inr (.inl rfl)
  · exact .inr (.inr rfl)

/-! ### A frame arrives -/

/-- What every byte taken and every check keeps, the arrival of a frame keeps. -/
theorem drain_keeps (P : State → Prop)
    (hlog : ∀ b s, P s → P (logByte b s)) (hbuf : ∀ bs s, P s → P (setInBuf bs s))
    (hbyte : ∀ b s t, P s → s.receiving = true → receiveByte b s = .next t → P t)
    (hcheck : ∀ s, P s → s.seq = .check → P (checkPhase s)) :
    ∀ (bs : List Byte) (s t : State), P s → drain bs s = .next t → P t
  | [], s, t, hs, h => by
    simp only [drain] at h
    exact Host.Outcome.next.inj h ▸ hbuf [] s hs
  | b :: bs, s, t, hs, h => by
    simp only [drain] at h
    split at h
    · next hr =>
      split at h
      · next u hu =>
        have hu' := hbyte b _ u (hlog b s hs) hr hu
        refine drain_keeps P hlog hbuf hbyte hcheck bs _ t ?_ h
        unfold checkIfComplete
        split
        · next hc => exact hcheck u hu' hc
        · exact hu'
      · cases h
      · cases h
    · exact Host.Outcome.next.inj h ▸ hbuf (b :: bs) s hs

/-- A block that is not collecting a response leaves an arriving frame in the input buffer. -/
theorem drain_idle {s : State} (h : s.receiving = false) (bs : List Byte) : drain bs s = .next (setInBuf bs s) := by
  cases bs with
  | nil => rfl
  | cons b bs => simp [drain, h]

/-! ### The loop form -/

/-- What the receive loops keep. -/
theorem recvLoop_keeps (P : State → Prop)
    (htp : ∀ s, P s → P { s with tp := (Transport.recvByte s.tp).2 }) (hbyte : ∀ b s, P s → P (storeByte b s)) :
    ∀ (n : Nat) (s : State), P s → P (recvLoop n s).2
  | 0, s, hs => hs
  | n + 1, s, hs => by
    unfold recvLoop
    simp only
    split
    · exact recvLoop_keeps P htp hbyte n _ (hbyte _ _ (htp s hs))
    · exact htp s hs
    · exact htp s hs

/-- The receive loops change the receive buffer, its length and the transport only. -/
theorem recvLoop_frame (n : Nat) (s : State) :
    (recvLoop n s).2 = { s with
      rxbuf := (recvLoop n s).2.rxbuf, rxlen := (recvLoop n s).2.rxlen, tp := (recvLoop n s).2.tp } := by
  have := recvLoop_keeps
    (fun u => u = { s with rxbuf := u.rxbuf, rxlen := u.rxlen, tp := u.tp })
    (fun u hu => by rw [hu]) (fun b u hu => by rw [hu]; rfl) n s rfl
  exact this

/-- What an attempt keeps: everything its calls, its stores and its check keep. -/
theorem attempt_keeps (P : State → Prop)
    (htp : ∀ tp s, P s → P { s with tp := tp }) (hlen : ∀ s, P s → P { s with rxlen := 0 })
    (hbyte : ∀ b s, P s → P (storeByte b s)) (hneed : ∀ m s, P s → P (setNeed m s))
    (hcrc : ∀ c s, P s → P { s with crc := c })
    (frame : List Byte) (fn : Byte) (m : Mode) (k : Word) (s : State) (hs : P s) :
    P (attempt frame fn m k s).2 := by
  have hloop := fun n u => recvLoop_keeps P (fun s h => htp _ s h) hbyte n u
  have hbegin : P (beginAttempt s) := htp _ _ (hlen s hs)
  unfold attempt
  simp only
  split
  · exact htp _ _ hbegin
  · exact htp _ _ hbegin
  · have h0 := htp (Transport.send frame (beginAttempt s).tp).2 _ hbegin
    have h1 := hloop Config.headLen _ h0
    unfold attemptReceive
    split
    · next r s1 h => rw [h] at h1; exact h1
    · next s1 h =>
      rw [h] at h1
      have h2 := hloop ((setNeed m s1).rxneed - Config.headLen) _ (hneed m s1 h1)
      unfold attemptBody
      simp only
      split
      · next r s2 h' => rw [h'] at h2; exact h2
      · next s2 h' => rw [h'] at h2; exact hcrc _ _ h2

/-- An attempt changes the receive registers, `CRC` and the transport only (R166). -/
theorem attempt_frame (frame : List Byte) (fn : Byte) (m : Mode) (k : Word) (s : State) :
    (attempt frame fn m k s).2 = { s with
      rxbuf := (attempt frame fn m k s).2.rxbuf, rxlen := (attempt frame fn m k s).2.rxlen
      rxneed := (attempt frame fn m k s).2.rxneed, crc := (attempt frame fn m k s).2.crc
      tp := (attempt frame fn m k s).2.tp } :=
  attempt_keeps
    (fun u => u = { s with rxbuf := u.rxbuf, rxlen := u.rxlen, rxneed := u.rxneed, crc := u.crc, tp := u.tp })
    (fun tp u hu => by rw [hu]) (fun u hu => by rw [hu]) (fun b u hu => by rw [hu]; rfl)
    (fun m u hu => by rw [hu]; rfl) (fun c u hu => by rw [hu]) frame fn m k s rfl

/-! ### The step -/

/-- A step is the sequencer's or takes the oldest request. -/
theorem step_cases (s : State) :
    step s = tick s ∨ ∃ item rest, s.port = item :: rest ∧ (s.busy = false ∨ item.waits = false) ∧
      step s = takeItem item { s with port := rest } := by
  unfold step stepState
  cases hp : s.port with
  | nil => exact .inl rfl
  | cons item rest =>
    simp only
    split
    · exact .inl rfl
    · next h =>
      refine .inr ⟨item, rest, rfl, ?_, rfl⟩
      cases hb : s.busy <;> cases hw : item.waits <;> simp_all

end Sys2Proof.Machine
end

