-- ==== Sys2Proof/Laws/Invariant.lean ====
section
/-! SUPPORT. Which operations keep the invariant `State.Inv`, one lemma each. -/

namespace Sys2Proof.Machine

/-! ### The sequencer -/

/-- Registers that no clause of the invariant reads. -/
theorem Inv_congr {s : State} (h : s.Inv) (c : Word) (p : Transport) (q : List PortItem) (r : RetVal)
    (l : Cause) (e : Byte) (wd : Nat) :
    State.Inv { s with crc := c, tp := p, port := q, ret := r, lastFault := l, excCode := e, writeDelay := wd } :=
  ⟨h.1, h.2, h.3, h.4, h.5, h.6, h.7, h.8, h.9, h.10, h.11, h.12, h.13, h.14, h.15, h.16, h.17, h.18, h.19,
      h.20, h.21, h.22, h.23⟩

theorem inv_tp {s : State} (h : s.Inv) (p : Transport) : State.Inv { s with tp := p } :=
  Inv_congr h s.crc p s.port s.ret s.lastFault s.excCode s.writeDelay
theorem inv_crc {s : State} (h : s.Inv) (c : Word) : State.Inv { s with crc := c } :=
  Inv_congr h c s.tp s.port s.ret s.lastFault s.excCode s.writeDelay
theorem inv_ret {s : State} (h : s.Inv) (r : RetVal) : State.Inv { s with ret := r } :=
  Inv_congr h s.crc s.tp s.port r s.lastFault s.excCode s.writeDelay
theorem inv_port {s : State} (h : s.Inv) (q : List PortItem) : State.Inv { s with port := q } :=
  Inv_congr h s.crc s.tp q s.ret s.lastFault s.excCode s.writeDelay

/-- `BUSY` by the phase. -/
theorem busy_iff (s : State) : s.busy = true ↔ s.seq ≠ .idle ∧ s.seq ≠ .fatal := by simp [State.busy]

/-- The registers that a command in progress changes: phase, receive buffer, failure counter, status,
    the first-write flag. -/
theorem Inv_busy {s : State} (h : s.Inv) (hb : s.busy = true) (p : Phase) (rb : Memory 8) (rl rn n : Nat)
    (fw : Bool)
   (l : Cause) (e : Byte)
   (hp : p ≠ .idle ∧ p ≠ .fatal) (hrb : Memory.wf Config.rxbufMax rb = true) (hrl : rl ≤ 260)
       (hn : n < s.maxAttempts)
   (hd : p = .delay → writeClass s.reqFn = true ∧ fw = false)
   (hw : p ≠ .delay → writeClass s.reqFn = true → fw = true)
   (hs : p = .send → rl = 0) (hh : p = .recvHead → rl < 3) (hbd : p = .recvBody → 3 ≤ rl ∧ rl < rn)
   (hc : p = .check → rl = rn) (hnd : p = .recvBody ∨ p = .check → rn = rxNeed (Memory.read rb 1)
       (Memory.read rb 2) s.reqMode) :
   State.Inv { s with
     seq := p, rxbuf := rb, rxlen := rl, rxneed := rn, fails := n, firstWriteDone := fw, lastFault := l
     excCode := e } := by
  obtain ⟨hi, hf⟩ := (busy_iff s).mp hb
  have h9 := h.fatal_iff
  have h10 := h.fatalCause_iff
  have h11 : s.fatalCause = .none := by
    by_contra hc; exact hf (h10.mp hc)
  have h12 : s.fatal = false := by
    by_contra hc; exact hf (h9.mp (by simpa using hc))
  exact ⟨h.1, hrb, h.3, h.4, hrl, h.6, h.7, h.8, by simp [h12, hp.2], by simp [h11, hp.2], by simp [h11],
      fun _ => h.unfinished hi, h.13,
    fun _ => hn, fun _ => h.busy_fn hb, fun _ => h.busy_frame hb, hd, fun _ => hw, hs, hh, hbd, hc, hnd⟩

/-- A usage fault in `IDLE`. -/
theorem inv_usageFault {s : State} (h : s.Inv) (hi : s.seq = .idle) (c : Cause) : (usageFault c s).Inv := by
  have hs : (usageFault c s).seq = .idle := hi
  have hb : (usageFault c s).busy = false := by unfold State.busy; rw [hs]; rfl
  have h10 := h.fatalCause_iff
  have h11 : s.fatalCause = .none := by
    by_contra hc; simp [hi] at h10; exact hc h10
  refine ⟨h.1, h.2, h.3, h.4, h.5, by simp [Config.resultMax], h.7, h.8, h.9, h.10, by simp [h11],
      fun hx => absurd hs hx, by simp, ?_, ?_, ?_, ?_, ?_, ?_, ?_, ?_, ?_, ?_⟩
    <;> first
      | (rw [hs]; intro hx; simp at hx)
      | (rw [hb]; simp)

/-- Entry to `FATAL`. -/
theorem inv_enterFatal {s : State} (h : s.Inv) (hb : s.seq ≠ .idle) (c : FatalCause) (hc : c ≠ .none)
    (he : c = .exhaustedRetries → s.fails = s.maxAttempts) :
    (enterFatal c s).Inv := by
  have hb' : (enterFatal c s).busy = false := by simp [State.busy]
  refine ⟨h.1, h.2, h.3, h.4, h.5, h.6, h.7, h.8, ?_, ?_, he, fun _ => h.unfinished hb, h.13, ?_, ?_, ?_, ?_,
      ?_, ?_, ?_, ?_, ?_, ?_⟩ <;> simp [hb', hc]

/-- A failed attempt. -/
theorem inv_failAttempt {s : State} (h : s.Inv) (hb : s.busy = true) (hd : s.seq ≠ .delay) (f : Failure) :
    (failAttempt f s).Inv := by
  obtain ⟨hi, hf⟩ := (busy_iff s).mp hb
  have hlt := h.busy_fails hb
  rcases failAttempt_cases f s with ⟨hm, he⟩ | ⟨hm, he⟩
  · rw [he, recordFailure_frame]
    have hu := h.unfinished hi
    refine ⟨h.1, h.2, h.3, h.4, h.5, h.6, h.7, h.8, ?_, ?_, ?_, fun _ => hu, h.13, ?_, ?_, ?_, ?_, ?_, ?_, ?_,
        ?_, ?_, ?_⟩ <;> simp [enterFatal, State.busy]
    omega
  · rw [he, recordFailure_frame]
    exact Inv_busy h hb .flush s.rxbuf s.rxlen s.rxneed (s.fails+1) s.firstWriteDone _ _ (by simp) h.2 h.5 hm
        (by simp) (fun _ => h.write_delayed hb hd) (by simp) (by simp) (by simp) (by simp) (by simp)

/-- At most 127 words pass `validate`. -/
theorem resultWords_length (dev : Byte) (rx : List Byte) (fn : Byte) (m : Mode) (k : Word) (ws)
    (h : validate dev rx fn m k = .ok ws) : ws.length ≤ 127 := by
  unfold validate at h
  repeat' split at h
  all_goals first | (cases h; done) | skip
  next h4 =>
  cases h
  cases m with
  | selfdesc =>
    simp at h4
    have := (byteAt rx 2).isLt
    simp [resultWords]; omega
  | fixed8 => simp [resultWords]

/-- A successful attempt. -/
theorem inv_complete {s : State} (h : s.Inv) (hi : s.seq ≠ .fatal) (hu : s.usage = false) (ws : List Word)
    (hl : ws.length ≤ 127) : (completeCommand ws s).Inv := by
  have h9 := h.fatal_iff
  have h10 := h.fatalCause_iff
  have h3 := wf_writeList (a := 0) ws h.result_wf (by simpa [Config.resultMax] using hl)
  have h11 : s.fatalCause = .none := by
    by_contra hc; exact hi (h10.mp hc)
  have h12 : s.fatal = false := by
    by_contra hc; exact hi (h9.mp (by simpa using hc))
  refine ⟨h.1, h.2, h3, h.4, h.5, hl, h.7, h.8, by simp [h12], by simp [h11], by simp [h11], by simp,
      fun _ => hu, ?_, ?_, ?_, ?_, ?_, ?_, ?_, ?_, ?_, ?_⟩ <;> simp [State.busy]

/-- Phase `CHECK`. -/
theorem inv_checkPhase {s : State} (h : s.Inv) (hs : s.seq = .check) : (checkPhase s).Inv := by
  have hb : s.busy = true := by simp [State.busy, hs]
  rcases checkPhase_cases s with ⟨ws, hv, he⟩ | ⟨f, he⟩
  · rw [he]; exact inv_complete (inv_crc h (crc16 s.rxFrame)) (by simp [hs]) (h.unfinished
        (by simp [hs])).2.1 ws (resultWords_length _ _ _ _ _ _ hv)
  · rw [he]; exact inv_failAttempt (inv_crc h (crc16 s.rxFrame)) hb (by simp [hs]) f

/-- A response has 5 to 260 bytes (R131). -/
theorem rxNeed_le (a b : Byte) (m : Mode) : 5 ≤ rxNeed a b m ∧ rxNeed a b m ≤ 260 := by
  have := b.isLt
  unfold rxNeed
  split
  · omega
  · cases m <;> simp [Config.fixedRspLen]; omega

/-- The third byte completes the head. -/
theorem afterStore_head_done {s : State} (h : s.seq = .recvHead) (hl : s.rxlen = 3) :
    afterStore s = { setNeed s.reqMode s with seq := .recvBody } := by
  unfold afterStore; rw [if_pos h, if_pos (show s.rxlen = Config.headLen from hl)]

/-- Before the third byte the head goes on. -/
theorem afterStore_head_more {s : State} (h : s.seq = .recvHead) (hl : s.rxlen ≠ 3) : afterStore s = s := by
  unfold afterStore; rw [if_pos h, if_neg (show ¬ s.rxlen = Config.headLen from hl)]

/-- The `RXNEED`-th byte completes the frame. -/
theorem afterStore_body_done {s : State} (h : s.seq = .recvBody) (hl : s.rxlen = s.rxneed) :
    afterStore s = { s with seq := .check } := by
  unfold afterStore; rw [if_neg (by simp [h]), if_pos hl]

/-- Before the `RXNEED`-th byte the body goes on. -/
theorem afterStore_body_more {s : State} (h : s.seq = .recvBody) (hl : s.rxlen ≠ s.rxneed) : afterStore s = s := by
  unfold afterStore; rw [if_neg (by simp [h]), if_neg hl]

/-- A byte received. -/
theorem inv_receiveByte {s t : State} {b : Byte} (h : s.Inv) (hr : s.receiving = true)
    (ht : receiveByte b s = .next t) : t.Inv := by
  obtain ⟨hl, rfl⟩ := receiveByte_eq ht
  have hb : s.busy = true := by
    simp [State.receiving] at hr; rcases hr with hr | hr <;> simp [State.busy, hr]
  have hdl : s.seq ≠ .delay := by intro hh; simp [State.receiving, hh] at hr
  have h2 := wf_write b h.rxbuf_wf (a := s.rxlen) (by simpa [Config.rxbufMax] using hl)
  simp [State.receiving] at hr
  have hlf := h.busy_fails hb
  have hwd := h.write_delayed hb hdl
  rcases hr with hr | hr
  · have hh := h.head_len hr
    by_cases h3 : s.rxlen + 1 = 3
    · rw [afterStore_head_done (s := storeByte b s) hr h3]
      have hq := rxNeed_le (Memory.read (Memory.write s.rxbuf s.rxlen b) 1) (Memory.read
          (Memory.write s.rxbuf s.rxlen b) 2) s.reqMode
      exact Inv_busy h hb .recvBody _ (s.rxlen+1) _ s.fails s.firstWriteDone s.lastFault s.excCode (by simp) h2
          (by omega) hlf (by simp) (fun _ => hwd) (by simp) (by simp) (fun _ => ⟨by omega, by
          show _ < rxNeed (Memory.read (Memory.write s.rxbuf s.rxlen b) 1) (Memory.read
              (Memory.write s.rxbuf s.rxlen b) 2) s.reqMode
          omega⟩) (by simp) (fun _ => rfl)
    · rw [afterStore_head_more (s := storeByte b s) hr h3]
      simp only [Config.headLen] at hh
      have := Inv_busy h hb .recvHead _ (s.rxlen+1) s.rxneed s.fails s.firstWriteDone s.lastFault s.excCode
          (by simp) h2 (by omega) hlf (by simp) (fun _ => hwd) (by simp) (fun _ => by omega) (by simp)
          (by simp) (by simp)
      rw [← hr] at this; exact this
  · have hh := h.body_len hr
    have hn := h.need (.inl hr)
    simp only [Config.headLen] at hh
    have r1 : Memory.read (Memory.write s.rxbuf s.rxlen b) 1 = Memory.read s.rxbuf 1 := read_write_ne b (by omega)
    have r2 : Memory.read (Memory.write s.rxbuf s.rxlen b) 2 = Memory.read s.rxbuf 2 := read_write_ne b (by omega)
    by_cases hq : s.rxlen + 1 = s.rxneed
    · rw [afterStore_body_done (s := storeByte b s) hr hq]
      exact Inv_busy h hb .check _ (s.rxlen+1) s.rxneed s.fails s.firstWriteDone s.lastFault s.excCode
          (by simp) h2 (by omega) hlf (by simp) (fun _ => hwd) (by simp) (by simp) (by simp) (fun _ => hq)
          (fun _ => by rw [storeByte_rxbuf, r1, r2]; exact hn)
    · rw [afterStore_body_more (s := storeByte b s) hr hq]
      have := Inv_busy h hb .recvBody _ (s.rxlen+1) s.rxneed s.fails s.firstWriteDone s.lastFault s.excCode
          (by simp) h2 (by omega) hlf (by simp) (fun _ => hwd) (by simp) (by simp) (fun _ => by omega)
          (by simp) (fun _ => by rw [r1, r2]; exact hn)
      rw [← hr] at this; exact this

/-- Phase `SEND`. -/
theorem inv_sendPhase {s : State} (h : s.Inv) (hs : s.seq = .send) : (sendPhase s).Inv := by
  have hb : s.busy = true := by simp [State.busy, hs]
  rcases sendPhase_cases s with he | he | he <;> rw [he]
  · have := Inv_busy (inv_tp h
        (Transport.send s.txFrame s.tp).2) hb .recvHead s.rxbuf s.rxlen s.rxneed s.fails s.firstWriteDone s.lastFault s.excCode (by simp) h.2 h.5 (h.busy_fails hb) (by simp) (fun _ => h.write_delayed hb (by simp [hs])) (by simp) (fun _ => by rw [h.send_len hs]; decide) (by simp) (by simp) (by simp)
    exact this
  · exact inv_failAttempt (inv_tp h (Transport.send s.txFrame s.tp).2) hb (by simp [hs]) _
  · exact inv_enterFatal (inv_tp h (Transport.send s.txFrame s.tp).2) (by simp [hs]) _ (by simp) (by simp)

/-- Phases `RECV_HEAD` and `RECV_BODY`. -/
theorem inv_recvPhase {s t : State} (h : s.Inv) (hr : s.receiving = true) (ht : recvPhase s = .next t) : t.Inv := by
  have hb : s.busy = true := by
    simp [State.receiving] at hr; rcases hr with hr | hr <;> simp [State.busy, hr]
  have hdl : s.seq ≠ .delay := by intro hh; simp [State.receiving, hh] at hr
  have hi := ((busy_iff s).mp hb).1
  rcases recvPhase_cases ht with ⟨b, _, hl, he⟩ | he | he <;> subst he
  · refine inv_receiveByte (b := b) (inv_tp h (Transport.recvByte s.tp).2) hr ?_
    simp [receiveByte, Config.rxbufMax, hl]
  · exact inv_failAttempt (inv_tp h (Transport.recvByte s.tp).2) hb hdl _
  · exact inv_enterFatal (inv_tp h (Transport.recvByte s.tp).2) hi _ (by simp) (by simp)

/-- Phase `DELAY`. -/
theorem inv_delayPhase {s : State} (h : s.Inv) (hs : s.seq = .delay) : (delayPhase s).Inv := by
  have hb : s.busy = true := by simp [State.busy, hs]
  exact Inv_busy h hb .flush s.rxbuf s.rxlen s.rxneed s.fails true s.lastFault s.excCode (by simp) h.2 h.5
      (h.busy_fails hb) (by simp) (by simp) (by simp) (by simp) (by simp) (by simp) (by simp)

/-- Phase `FLUSH`. -/
theorem inv_flushPhase {s : State} (h : s.Inv) (hs : s.seq = .flush) : (flushPhase s).Inv := by
  have hb : s.busy = true := by simp [State.busy, hs]
  exact Inv_busy (inv_tp h
      (Transport.flushInput s.tp)) hb .send s.rxbuf 0 s.rxneed s.fails s.firstWriteDone s.lastFault s.excCode
      (by simp) h.2 (by simp) (h.busy_fails hb) (by simp) (fun _ => h.write_delayed hb (by simp [hs]))
      (by simp) (by simp) (by simp) (by simp) (by simp)

/-- One step of the sequencer. -/
theorem inv_tick {s t : State} (h : s.Inv) (ht : tick s = .next t) : t.Inv := by
  rcases tick_cases ht with ⟨_, rfl⟩ | ⟨hs, rfl⟩ | ⟨hs, rfl⟩ | ⟨hs, rfl⟩ | ⟨hs, hr⟩ | ⟨hs, rfl⟩
  · exact h
  · exact inv_delayPhase h hs
  · exact inv_flushPhase h hs
  · exact inv_sendPhase h hs
  · exact inv_recvPhase h hs hr
  · exact inv_checkPhase h hs

/-- A frame arriving on the line. -/
theorem inv_drain {s t : State} (bs) (h : s.Inv) (ht : drain bs s = .next t) : t.Inv :=
  drain_keeps State.Inv (fun _ _ h => inv_tp h _) (fun _ _ h => inv_tp h _)
    (fun _ _ _ h hr ht => inv_receiveByte h hr ht) (fun _ h hs => inv_checkPhase h hs) bs s t h ht


/-! ### Acceptance -/
/-- Inside R110's domain the frame is the pseudocode's. -/
theorem buildFrame_eq (dev fn : Byte) {p : List Byte} (hp : p.length ≤ 259) :
    buildFrame dev fn p = appendCrc (frameBody dev fn p) := if_pos hp

/-- Inside R110's domain the frame is 4 bytes longer than the payload. -/
theorem buildFrame_length (dev fn : Byte) {p : List Byte} (hp : p.length ≤ 259) :
    (buildFrame dev fn p).length = p.length + 4 := by
  simp [buildFrame_eq dev fn hp, appendCrc, frameBody, computeCrc, le16]

/-- Inside R110's domain `TXBUF` takes the whole frame. -/
theorem requestFrame_eq (dev fn : Byte) {p : List Byte} (hp : p.length ≤ 259) :
    requestFrame dev fn p = buildFrame dev fn p :=
  List.take_of_length_le (by rw [buildFrame_length dev fn hp]; simp [Config.txbufMax]; omega)

/-- The frame in `TXBUF` is inside the capacity (R11). -/
theorem requestFrame_length (dev fn : Byte) (p : List Byte) : (requestFrame dev fn p).length ≤ 263 :=
  List.length_take_le ..

/-- Inside R113's domain the payload is the pseudocode's. -/
theorem encWMulti_eq (a : Word) {vs : List Word} (hl : vs.length ≤ 127) : encWMulti a vs = wmultiPayload a vs := if_pos hl

/-- `TXBUF[0:TXLEN]` after acceptance is the frame built (R152). -/
theorem txFrame_start (fn : Byte) (p : List Byte) (m : Mode) (k : Word) {s : State}
    (h : Memory.wf Config.txbufMax s.txbuf = true) :
    (startRequest fn p m k s).txFrame = requestFrame s.devAddr fn p :=
  readList_writeList (a := 0) (requestFrame s.devAddr fn p) h (by simpa [Config.txbufMax] using requestFrame_length ..)

/-- The words of a write-multiple frame are read back. -/
theorem splitWords_append (vs : List Word) (bs : List Byte) : splitWords vs.length
    (vs.flatMap be16 ++ bs) = some (vs, bs) := by
  induction vs with
  | nil => rfl
  | cons v vs ih => simp [splitWords, be16, List.flatMap_cons, ih] at *

/-- The frame built for `readWords` is a REQ.READ row's. -/
theorem decode_read (dev : Byte) (a k : Word) : decodeRequest (buildFrame dev fnRead (encRead a k)) =
    .ok (.reqRead dev a k (crc16 (twoFieldBody dev fnRead a k))) := by
  simp [decodeRequest, buildFrame, Config.maxPayload, appendCrc, frameBody, computeCrc, encRead, twoFieldBody, be16, le16]
/-- The frame built for `writeWord` is a REQ.WSINGLE row's. -/
theorem decode_wsingle (dev : Byte) (a k : Word) : decodeRequest (buildFrame dev fnWSingle (encWSingle a k)) =
    .ok (.reqWSingle dev a k (crc16 (twoFieldBody dev fnWSingle a k))) := by
  simp [decodeRequest, buildFrame, Config.maxPayload, appendCrc, frameBody, computeCrc, encWSingle, twoFieldBody, be16, le16,
      show ¬ fnWSingle = fnRead by decide]
/-- The frame built for `writeWords` is a REQ.WMULTI row's. -/
theorem decode_wmulti (dev : Byte) (a : Word) (vs : List Word) (hl : vs.length ≤ 127) : decodeRequest
    (buildFrame dev fnWMulti (encWMulti a vs)) =
    .ok (.reqWMulti dev a vs (crc16 (wmultiBody dev a vs))) := by
  have h1 : BitVec.toNat (BitVec.ofNat 16 vs.length) = vs.length := by simp; omega
  have hp : (wmultiPayload a vs).length ≤ 259 := by
    simp [wmultiPayload, be16, List.length_flatMap]; omega
  rw [encWMulti_eq a hl, buildFrame_eq _ _ hp]
  simp only [appendCrc, frameBody, wmultiPayload, computeCrc, be16, List.cons_append, List.nil_append,
      decodeRequest, u16be_bytes, h1, wmultiBody]
  rw [if_neg (by decide), if_neg (by decide), if_pos trivial]
  rw [if_pos (by simp; omega)]
  rw [splitWords_append]
  simp [le16]

/-- Acceptance of a request whose frame is a request row's. -/
theorem inv_startRequest {s : State} (h : s.Inv) (hi : s.seq = .idle) (fn : Byte) (p : List Byte) (k : Word)
    (hp : p.length ≤ 259) (hf : legalFn fn = true)
    (i : Instr) (hd : decodeRequest (buildFrame s.devAddr fn p) = .ok i) (hw : i.wf = true) :
    (startRequest fn p (modeOf fn) k s).Inv := by
  have h9 := h.fatal_iff
  have h10 := h.fatalCause_iff
  have h11 : s.fatalCause = .none := by
    by_contra hc; simp [hi] at h10; exact hc h10
  have h12 : s.fatal = false := by simpa [hi] using h9
  have hl := requestFrame_length s.devAddr fn p
  have htw : Memory.wf Config.txbufMax (startRequest fn p (modeOf fn) k s).txbuf = true :=
    wf_writeList _ h.txbuf_wf (by simpa [Config.txbufMax] using hl)
  have hfr := (txFrame_start fn p (modeOf fn) k h.txbuf_wf).trans (requestFrame_eq s.devAddr fn hp)
  have hseq : (startRequest fn p
      (modeOf fn) k s).seq = if writeClass fn && !s.firstWriteDone then .delay else .flush := rfl
  have hh : (startRequest fn p (modeOf fn) k s).holdsRequest = true := by
    unfold State.holdsRequest
    rw [hfr, hd]
    simp [hw, buildFrame_eq _ _ hp, appendCrc, frameBody, byteAt]
  refine ⟨htw, h.2, h.3, hl, h.5, by simp [Config.resultMax], h.7, h.8, ?_, ?_,
      ?_, ?_, by simp, fun _ => h.7, fun _ => ⟨hf, rfl⟩, fun _ => hh, ?_, ?_, ?_, ?_, ?_, ?_, ?_⟩
  · rw [hseq, startRequest_fatal, h12]; split <;> simp
  · rw [hseq, startRequest_fatalCause, h11]; split <;> simp
  · rw [startRequest_fatalCause, h11]; simp
  · intro _; exact ⟨rfl, rfl, rfl⟩
  · rw [hseq]; split
    · next hc => simp at hc; exact fun _ => hc
    · simp
  · rw [hseq]; split
    · simp
    · next hc => simp at hc; exact fun _ _ => hc
  all_goals (rw [hseq]; split <;> simp)

/-- Command acceptance. -/
theorem inv_acceptCommand {s : State} (h : s.Inv) (fn : Byte) (a : Int) (vals : List Number) (p : List Byte)
    (k : Word)
   (hok : usageCheck fn a vals = none → p.length ≤ 259 ∧ ∃ i, decodeRequest
       (buildFrame s.devAddr fn p) = .ok i ∧ i.wf = true) :
   (acceptCommand fn a vals p k s).Inv := by
  rcases acceptCommand_cases fn a vals p k s with ⟨_, he⟩ | ⟨hi, c, _, he⟩ | ⟨hi, hu, he⟩ <;> rw [he]
  · exact h
  · exact inv_usageFault h hi c
  · obtain ⟨hp, i, hd, hw⟩ := hok hu
    exact inv_startRequest h hi fn p k hp (usageCheck_eq_none hu).1 i hd hw

/-! ### The loop form -/
/-- The receive loops stay inside `RXBUF`. -/
theorem recvLoop_bounds (n : Nat) (s : State) (h : Memory.wf Config.rxbufMax s.rxbuf = true)
    (hl : s.rxlen + n ≤ 260) :
    Memory.wf Config.rxbufMax (recvLoop n s).2.rxbuf = true ∧ (recvLoop n s).2.rxlen ≤ s.rxlen + n ∧
    ((recvLoop n s).1 = none → (recvLoop n s).2.rxlen = s.rxlen + n) := by
  induction n generalizing s with
  | zero => exact ⟨h, by simp [recvLoop], by simp [recvLoop]⟩
  | succ n ih =>
    unfold recvLoop
    simp only
    split
    · next b hb =>
      have := ih (storeByte b { s with tp := (Transport.recvByte s.tp).2 }) (wf_write b h
          (by simp [Config.rxbufMax]; omega)) (by simp; omega)
      simp only [storeByte_rxlen] at this
      refine ⟨this.1, by omega, fun hn => by have := this.2.2 hn; omega⟩
    · exact ⟨h, by simp, by simp⟩
    · exact ⟨h, by simp, by simp⟩

/-- An attempt stays inside `RXBUF`. -/
theorem attempt_bounds (frame : List Byte) (fn : Byte) (m : Mode) (k : Word) (s : State)
    (h : Memory.wf Config.rxbufMax s.rxbuf = true) :
    Memory.wf Config.rxbufMax (attempt frame fn m k s).2.rxbuf = true ∧ (attempt frame fn m k s).2.rxlen ≤ 260 := by
  unfold attempt
  simp only
  split
  · exact ⟨h, by simp [beginAttempt]⟩
  · exact ⟨h, by simp [beginAttempt]⟩
  · unfold attemptReceive
    have h1 := recvLoop_bounds Config.headLen { beginAttempt s with tp := (Transport.send frame
        (beginAttempt s).tp).2 } h (by simp [beginAttempt, Config.headLen])
    have e0 : ({ beginAttempt s with tp := (Transport.send frame (beginAttempt s).tp).2 } : State).rxlen = 0 := rfl
    rw [e0] at h1
    split
    · next r s1 he => rw [he] at h1; exact ⟨h1.1, le_trans h1.2.1 (by decide)⟩
    · next s1 he =>
      rw [he] at h1
      have h3 : s1.rxlen = 3 := h1.2.2 rfl
      unfold attemptBody
      simp only
      have hq := rxNeed_le (Memory.read s1.rxbuf 1) (Memory.read s1.rxbuf 2) m
      have e1 : (setNeed m s1).rxneed = rxNeed (Memory.read s1.rxbuf 1) (Memory.read s1.rxbuf 2) m := rfl
      have h2 := recvLoop_bounds ((setNeed m s1).rxneed - Config.headLen) (setNeed m s1) h1.1
        (by rw [e1, setNeed_rxlen, h3]; simp only [Config.headLen]; omega)
      rw [setNeed_rxlen, h3, e1] at h2
      rw [e1]
      split
      · next r s2 he2 =>
        rw [he2] at h2
        refine ⟨h2.1, ?_⟩
        have := h2.2.1
        simp only [Config.headLen] at this
        show s2.rxlen ≤ 260
        omega
      · next s2 he2 =>
        rw [he2] at h2
        refine ⟨h2.1, ?_⟩
        have := h2.2.1
        simp only [Config.headLen] at this
        show s2.rxlen ≤ 260
        omega

/-- An attempt answers at most 127 words. -/
theorem attempt_words (frame : List Byte) (fn : Byte) (m : Mode) (k : Word) (s : State) (ws) (h :
    (attempt frame fn m k s).1 = .ok ws) : ws.length ≤ 127 := by
  have hv : ∀ s2, (judge fn m k s2).1 = .ok ws → ws.length ≤ 127 := by
    intro s2 hj
    simp only [judge] at hj
    cases hvd : validate s2.devAddr s2.rxFrame fn m k with
    | ok ws' => rw [hvd] at hj; simp [Verdict.result] at hj; subst hj; exact resultWords_length _ _ _ _ _ _ hvd
    | frameFault c => rw [hvd] at hj; simp [Verdict.result] at hj
    | deviceException c => rw [hvd] at hj; simp [Verdict.result] at hj
  have hloop : ∀ n s1 r s2, recvLoop n s1 = (some r, s2) → r ≠ .ok ws := by
    intro n
    induction n with
    | zero => intro s1 r s2 h; simp [recvLoop] at h
    | succ n ih =>
      intro s1 r s2 h
      unfold recvLoop at h
      simp only at h
      split at h
      · exact ih _ _ _ h
      · cases h; simp
      · cases h; simp
  unfold attempt at h
  simp only at h
  split at h
  · cases h
  · cases h
  · unfold attemptReceive at h
    split at h
    · next r s1 he => exact absurd h (hloop _ _ _ _ he)
    · unfold attemptBody at h
      simp only at h
      split at h
      · next r s1 he => exact absurd h (hloop _ _ _ _ he)
      · exact hv _ h

/-- An attempt called in `IDLE`. -/
theorem inv_attempt {s : State} (h : s.Inv) (hi : s.seq = .idle) (frame : List Byte) (fn : Byte) (m : Mode)
    (k : Word) :
    State.Inv (attempt frame fn m k s).2 := by
  have hb := attempt_bounds frame fn m k s h.2
  rw [attempt_frame]
  refine ⟨h.1, hb.1, h.3, h.4, hb.2, h.6, h.7, h.8, h.9, h.10, h.11, h.12, h.13, ?_, ?_, ?_, ?_, ?_, ?_, ?_, ?_,
      ?_, ?_⟩ <;> simp [State.busy, hi]

/-- What holds at every turn of the loop of `execute`. -/
structure LoopInv (s : State) : Prop where
  txbuf_wf : Memory.wf Config.txbufMax s.txbuf = true
  rxbuf_wf : Memory.wf Config.rxbufMax s.rxbuf = true
  result_wf : Memory.wf Config.resultMax s.result = true
  txlen_le : s.txlen ≤ 263
  rxlen_le : s.rxlen ≤ 260
  max : 1 ≤ s.maxAttempts
  tmo : 1 ≤ s.rxTimeout
  fatal : s.fatal = false
  cause : s.fatalCause = .none
  done : s.done = false
  usage : s.usage = false
  rl : s.resultLen = 0
  fails : s.fails < s.maxAttempts
  seq : s.seq ≠ .idle ∧ s.seq ≠ .fatal

/-- The loop of `execute` ends in a legal state. -/
theorem inv_executeLoop (frame : List Byte) (fn : Byte) (m : Mode) (k : Word) (n : Nat) (s : State)
    (h : LoopInv s) (hn : s.maxAttempts ≤ s.fails + n) :
    (executeLoop frame fn m k n s).Inv := by
  induction n generalizing s with
  | zero => have := h.fails; omega
  | succ n ih =>
    unfold executeLoop
    have hb := attempt_bounds frame fn m k s h.2
    have hf := attempt_frame frame fn m k s
    have hwds := attempt_words frame fn m k s
    have hlt := h.fails
    split
    · next ws t he =>
      rw [he] at hb hf hwds
      simp only at hf hb
      have hws := hwds ws rfl
      have h3 := wf_writeList (a := 0) ws h.result_wf (by simpa [Config.resultMax] using hws)
      rw [hf]
      refine ⟨h.1, hb.1, h3, h.4, hb.2, hws, h.6, h.7, by simp [h.fatal], by simp [h.cause], by simp [h.cause],
          by simp, by simp [h.usage], ?_, ?_, ?_, ?_, ?_, ?_, ?_, ?_, ?_, ?_⟩ <;> simp [State.busy]
    · next t he =>
      rw [he] at hb hf
      simp only at hf hb
      rw [hf]
      refine ⟨h.1, hb.1, h.3, h.4, hb.2, by simp [h.rl, Config.resultMax], h.6, h.7, by simp, by simp, by simp,
          by simp [h.done, h.usage, h.rl], by simp [h.done], ?_, ?_, ?_, ?_, ?_, ?_, ?_, ?_, ?_,
          ?_⟩ <;> simp [State.busy]
    · next f t he =>
      rw [he] at hb hf
      simp only at hf hb ⊢
      have hm : (recordFailure f t).maxAttempts = s.maxAttempts := by rw [recordFailure_frame, hf]
      have hfl : (recordFailure f t).fails = s.fails + 1 := by rw [recordFailure_frame, hf]
      split
      · next hc =>
        rw [hm, hfl] at hc
        rw [recordFailure_frame, hf]
        refine ⟨h.1, hb.1, h.3, h.4, hb.2, by simp [h.rl, Config.resultMax], h.6, h.7, by simp, by simp,
            by simp; omega, by simp [h.done, h.usage, h.rl], by simp [h.done], ?_, ?_, ?_, ?_, ?_, ?_, ?_, ?_,
            ?_, ?_⟩ <;> simp [State.busy]
      · next hc =>
        rw [hm, hfl] at hc
        refine ih _ ?_ (by rw [hm, hfl]; omega)
        rw [recordFailure_frame, hf]
        exact ⟨h.1, hb.1, h.3, h.4, hb.2, h.6, h.7, h.8, h.9, h.10, h.11, h.12,
            by show s.fails + 1 < s.maxAttempts; omega, h.14⟩

/-- The loop of `execute` starts well. -/
theorem loopInv_prepare {s : State} (h : s.Inv) (hi : s.seq = .idle) (fn : Byte) (p : List Byte) (m : Mode)
    (k : Word) :
    LoopInv (prepareExecute fn p m k s) := by
  have h9 := h.fatal_iff
  have h10 := h.fatalCause_iff
  have h11 : s.fatalCause = .none := by
    by_contra hc; simp [hi] at h10; exact hc h10
  have h12 : s.fatal = false := by simpa [hi] using h9
  have hl := requestFrame_length s.devAddr fn p
  have htw : Memory.wf Config.txbufMax (startRequest fn p m k s).txbuf = true :=
    wf_writeList _ h.txbuf_wf (by simpa [Config.txbufMax] using hl)
  have base : LoopInv (startRequest fn p m k s) := by
    refine ⟨htw, h.2, h.3, hl, h.5, h.7, h.8, h12, h11, rfl, rfl, rfl, h.7, ?_⟩
    show (if writeClass fn && !s.firstWriteDone then Phase.delay else Phase.flush) ≠ _ ∧
        (if writeClass fn && !s.firstWriteDone then Phase.delay else Phase.flush) ≠ _
    split <;> simp
  unfold prepareExecute takeDelay
  split
  · exact ⟨base.1, base.2, base.3, base.4, base.5, base.6, base.7, base.8, base.9, base.10, base.11, base.12,
        base.13, by simp⟩
  · exact base

/-- `execute` called in `IDLE`. -/
theorem inv_execute {s : State} (h : s.Inv) (hi : s.seq = .idle) (fn : Byte) (p : List Byte) (m : Mode)
    (k : Word) :
    (execute fn p m k s).Inv := by
  have hm : (prepareExecute fn p m k s).maxAttempts = s.maxAttempts := by
    unfold prepareExecute takeDelay; split <;> rfl
  exact inv_executeLoop _ _ _ _ _ _ (loopInv_prepare h hi fn p m k) (by rw [hm]; omega)

/-- The emission of a frame. -/
theorem inv_emit {s : State} (h : s.Inv) (f : List Byte) : (emitFrame f s).Inv := by
  unfold emitFrame
  split
  · next hc => exact inv_sendPhase h hc.1
  · exact h

/-- The bytes of a frame that is no row's. -/
theorem inv_unlistedFrame {s t : State} (h : s.Inv) (w : PortWord) (ht : unlistedFrame w s = .next t) : t.Inv := by
  cases w with
  | rx frame => exact inv_drain _ h ht
  | tx frame => cases ht; exact inv_emit h frame
  | crc op b => cases ht; exact h
  | cmd fn a b vals => cases ht; exact h
  | call c => cases ht; exact h

end Sys2Proof.Machine
end

