-- ==== Sys2Proof/Laws/PerInstr.lean ====
section
/-! SUPPORT. One statement per operation, one lemma per constructor: the encoding of a well-formed operation carries the
bits that its row of opcode_table.json fixes. -/

namespace Sys2Proof.Laws.TableRow

open Sys2Proof Sys2Proof.Machine

/-- The number whose bits opcode_table.json numbers (R78): `crc_op`, `fn`, or the first two bytes of a frame; a function
call has none. -/
def numbered : PortWord → Nat
  | .crc op _ => op.toNat
  | .cmd fn _ _ _ => fn.toNat
  | .tx frame => (byteAt frame 0).toNat * 256 + (byteAt frame 1).toNat
  | .rx frame => (byteAt frame 0).toNat * 256 + (byteAt frame 1).toNat
  | .call _ => 0

/-- The columns `match` and `mask` of the operation's row; a row without a bit pattern has mask 0. -/
def pattern : Instr → Nat × Nat
  | .crcNop => (0x0, 0x3)
  | .crcInit => (0x1, 0x3)
  | .crcUpdate _ => (0x2, 0x3)
  | .crcReserved => (0x3, 0x3)
  | .readWords _ _ => (0x03, 0xFF)
  | .writeWord _ _ => (0x06, 0xFF)
  | .writeWords _ _ => (0x10, 0xFF)
  | .reqRead _ _ _ _ => (0x0003, 0x00FF)
  | .reqWSingle _ _ _ _ => (0x0006, 0x00FF)
  | .reqWMulti _ _ _ _ => (0x0010, 0x00FF)
  | .rspRead _ _ _ => (0x0003, 0x00FF)
  | .rspWSingle _ _ _ _ => (0x0006, 0x00FF)
  | .rspWMulti _ _ _ _ => (0x0010, 0x00FF)
  | .rspExc _ _ _ _ => (0x0080, 0x0080)
  | .cmdReserved _ _ _ _ => (0, 0)
  | .crc16 _ | .computeCrc _ | .appendCrc _ | .isValid _ | .buildFrame _ _ => (0, 0)
  | .encRead _ _ | .encWSingle _ _ | .encWMulti _ _ => (0, 0)
  | .rxNeed _ _ _ _ | .validate _ _ _ _ | .excClass _ | .toWord _ => (0, 0)
  | .attempt _ _ _ _ | .execute _ _ _ _ => (0, 0)

/-- A well-formed operation's encoding carries its row's bits; a reserved command carries an `fn` that is none of the three
(R73). -/
def Statement (i : Instr) : Prop :=
  i.wf = true → numbered (encode i) &&& (pattern i).2 = (pattern i).1 ∧
    (∀ fn a b vals, i = .cmdReserved fn a b vals → numbered (encode i) ∉ [0x03, 0x06, 0x10])

/-- The low byte of the number of a frame is its function byte. -/
theorem fn_bits (a b : Byte) : (a.toNat * 256 + b.toNat) &&& 0x00FF = b.toNat := by
  have := b.isLt
  rw [show (0x00FF : Nat) = 2 ^ 8 - 1 from rfl, Nat.and_two_pow_sub_one_eq_mod]
  omega

/-- Bit 7 of that number is bit 7 of the function byte. -/
theorem exc_bit (a b : Byte) (h : bit7 b = true) : (a.toNat * 256 + b.toNat) &&& 0x0080 = 0x0080 := by
  have hb : b.toNat &&& 0x80 = 0x80 := by revert b; decide
  have : (a.toNat * 256 + b.toNat) &&& 0x80 = ((a.toNat * 256 + b.toNat) &&& 0xFF) &&& 0x80 := by
    rw [Nat.and_assoc, show (0xFF &&& 0x80 : Nat) = 0x80 from rfl]
  rw [this, fn_bits, hb]

theorem crcNop : Statement .crcNop := fun _ => ⟨rfl, nofun⟩
theorem crcInit : Statement .crcInit := fun _ => ⟨rfl, nofun⟩
theorem crcUpdate (b : Byte) : Statement (.crcUpdate b) :=
  fun _ => ⟨by simp [numbered, encode, pattern], nofun⟩
theorem crcReserved : Statement .crcReserved := fun _ => ⟨rfl, nofun⟩
theorem readWords (a : Int) (k : Word) : Statement (.readWords a k) :=
  fun _ => ⟨by simp [numbered, encode, pattern, fnRead], nofun⟩
theorem writeWord (a : Int) (x : Number) : Statement (.writeWord a x) :=
  fun _ => ⟨by simp [numbered, encode, pattern, fnWSingle], nofun⟩
theorem writeWords (a : Int) (xs : List Number) : Statement (.writeWords a xs) :=
  fun _ => ⟨by simp [numbered, encode, pattern, fnWMulti], nofun⟩
theorem cmdReserved (fn : Byte) (a : Int) (b : Number) (xs : List Number) : Statement (.cmdReserved fn a b xs) := by
  intro h
  refine ⟨Nat.and_zero _, ?_⟩
  rintro fn' a' b' xs' he
  cases he
  simp only [Instr.wf, Bool.not_eq_true'] at h
  show fn.toNat ∉ _
  revert fn; decide
theorem reqRead (d : Byte) (a k c : Word) : Statement (.reqRead d a k c) := fun _ => ⟨fn_bits d fnRead, nofun⟩
theorem reqWSingle (d : Byte) (r v c : Word) : Statement (.reqWSingle d r v c) :=
  fun _ => ⟨fn_bits d fnWSingle, nofun⟩
theorem reqWMulti (d : Byte) (a : Word) (vs : List Word) (c : Word) : Statement (.reqWMulti d a vs c) :=
  fun _ => ⟨fn_bits d fnWMulti, nofun⟩
theorem rspRead (d : Byte) (bs : List Byte) (c : Word) : Statement (.rspRead d bs c) :=
  fun _ => ⟨fn_bits d fnRead, nofun⟩
theorem rspWSingle (d : Byte) (r v c : Word) : Statement (.rspWSingle d r v c) :=
  fun _ => ⟨fn_bits d fnWSingle, nofun⟩
theorem rspWMulti (d : Byte) (a k c : Word) : Statement (.rspWMulti d a k c) :=
  fun _ => ⟨fn_bits d fnWMulti, nofun⟩
theorem rspExc (d fn e : Byte) (c : Word) : Statement (.rspExc d fn e c) := fun h => ⟨exc_bit d fn h, nofun⟩
theorem crc16 (bs : List Byte) : Statement (.crc16 bs) :=
  fun _ => ⟨Nat.and_zero _, nofun⟩
theorem computeCrc (bs : List Byte) : Statement (.computeCrc bs) :=
  fun _ => ⟨Nat.and_zero _, nofun⟩
theorem appendCrc (bs : List Byte) : Statement (.appendCrc bs) :=
  fun _ => ⟨Nat.and_zero _, nofun⟩
theorem isValid (bs : List Byte) : Statement (.isValid bs) :=
  fun _ => ⟨Nat.and_zero _, nofun⟩
theorem buildFrame (fn : Byte) (p : List Byte) : Statement (.buildFrame fn p) :=
  fun _ => ⟨Nat.and_zero _, nofun⟩
theorem encRead (a k : Word) : Statement (.encRead a k) :=
  fun _ => ⟨Nat.and_zero _, nofun⟩
theorem encWSingle (a v : Word) : Statement (.encWSingle a v) :=
  fun _ => ⟨Nat.and_zero _, nofun⟩
theorem encWMulti (a : Word) (vs : List Word) : Statement (.encWMulti a vs) :=
  fun _ => ⟨Nat.and_zero _, nofun⟩
theorem rxNeed (h0 h1 h2 : Byte) (m : Mode) : Statement (.rxNeed h0 h1 h2 m) :=
  fun _ => ⟨Nat.and_zero _, nofun⟩
theorem validate (rx : List Byte) (fn : Byte) (m : Mode) (k : Word) : Statement (.validate rx fn m k) :=
  fun _ => ⟨Nat.and_zero _, nofun⟩
theorem excClass (c : Byte) : Statement (.excClass c) :=
  fun _ => ⟨Nat.and_zero _, nofun⟩
theorem toWord (x : Number) : Statement (.toWord x) :=
  fun _ => ⟨Nat.and_zero _, nofun⟩
theorem attempt (f : List Byte) (fn : Byte) (m : Mode) (k : Word) : Statement (.attempt f fn m k) :=
  fun _ => ⟨Nat.and_zero _, nofun⟩
theorem execute (fn : Byte) (p : List Byte) (m : Mode) (k : Word) : Statement (.execute fn p m k) :=
  fun _ => ⟨Nat.and_zero _, nofun⟩

end Sys2Proof.Laws.TableRow
end

