-- ==== Sys2Proof/Tests/Slice0.lean ====
section
/-! SUPPORT. Tests with expected results from spec/95_test_vectors.md (V<n>) and 30_encoding.md, and, for every statement with
hypotheses, a theorem that shows values meeting all of them. -/

open Sys2Proof Sys2Proof.Machine Sys2Proof.Claims

namespace Sys2Proof.Tests

-- The tests are elaborated one after another: each asks the kernel for an evaluation.
set_option Elab.async false

/-! ### Helpers -/

/-- A value of the next state. -/
def after {α : Type} (f : State → α) : Result → Option α
  | .next t => some (f t)
  | _ => none

/-- The refusal. -/
def refusal : Result → Option Refusal
  | .refused r => some r
  | _ => none

/-- A transport about to make these choices, with these bytes buffered. -/
def tpOf (inBuf : List Byte) (turns : List Turn) : Transport := { inBuf := inBuf, turns := turns, draws := 0, bus := [] }

/-- The configured block: `DEV_ADDR = 1`, `MAX_ATTEMPTS = 2`. -/
def idle : State := { State.reset with devAddr := 1, maxAttempts := 2, rxTimeout := 10 }

/-- `readWords(8, 2)` in progress (V152), in phase `p` with the first `n` bytes of `rx` received. -/
def reading (p : Phase) (n need : Nat) (rx : List Byte) (tp : Transport) : State :=
  { idle with
    txbuf := [(0, 0x01), (1, 0x03), (3, 0x08), (5, 0x02), (6, 0x45), (7, 0xC9)], txlen := 8
    rxbuf := Memory.writeList [] 0 (rx.take n), rxlen := n, rxneed := need
    reqFn := 0x03, reqMode := .selfdesc, reqCount := 2, seq := p, tp := tp }

/-- `writeWord(8, 1200)` in progress (V150, V151). -/
def writing (p : Phase) (first : Bool) (tp : Transport) : State :=
  { idle with
    txbuf := [(0, 0x01), (1, 0x06), (3, 0x08), (4, 0x04), (5, 0xB0), (6, 0x0B), (7, 0x7C)], txlen := 8
    reqFn := 0x06, seq := p, firstWriteDone := first, tp := tp }

/-- `writeWords(18, [1])` in progress (V47). -/
def writingMany (p : Phase) (tp : Transport) : State :=
  { idle with
    txbuf := [(0, 0x01), (1, 0x10), (3, 0x12), (5, 0x01), (6, 0x02), (8, 0x01), (9, 0x64), (10, 0xE2)], txlen := 11
    reqFn := 0x10, seq := p, firstWriteDone := true, tp := tp }

/-- V70: the good response to `readWords(8, 2)`. -/
def good : List Byte := [0x01, 0x03, 0x04, 0x04, 0xB0, 0x01, 0xF4, 0xFA, 0xF3]

/-- A block that has gone fatal. -/
def dead : State :=
  { idle with seq := .fatal, fatal := true, fatalCause := .exhaustedRetries, fails := 2, lastFault := .transportTimeout }

/-! ### Well-formedness: an ill-formed term for each check -/

theorem test_wf_accepts :
    (Instr.reqRead 0x01 8 2 0xC945).wf ∧ (Instr.reqWSingle 0x01 8 1200 0x7C0B).wf ∧
    (Instr.reqWMulti 0x01 18 [1] 0xE264).wf ∧ (Instr.rspExc 0x01 0x83 2 0).wf ∧
    (Instr.validate good 0x03 .selfdesc 2).wf ∧ (Instr.execute 0x06 [0, 8, 4, 0xB0] .fixed8 0).wf := by
  decide +kernel

theorem test_wf_refuses :
    (Instr.cmdReserved 0x03 0 (Number.ofInt 0) []).wf = false ∧
    (Instr.reqRead 0x01 8 2 0x45C9).wf = false ∧ (Instr.reqWSingle 0x01 8 1200 0x0B7C).wf = false ∧
    (Instr.reqWMulti 0x01 18 [1] 0).wf = false ∧ (Instr.reqWMulti 0x01 18 (List.replicate 128 0) 0).wf = false ∧
    (Instr.rspRead 0x01 (List.replicate 256 0) 0).wf = false ∧ (Instr.rspExc 0x01 0x03 2 0).wf = false ∧
    (Instr.buildFrame 0x03 (List.replicate 260 0)).wf = false ∧
    (Instr.encWMulti 0 (List.replicate 128 0)).wf = false ∧
    (Instr.validate [0x01, 0x03] 0x03 .selfdesc 2).wf = false ∧ (Instr.validate good 0x83 .selfdesc 2).wf = false ∧
    (Instr.attempt [] 0x80 .fixed8 2).wf = false ∧
    (Instr.execute 0x03 (List.replicate 260 0) .selfdesc 2).wf = false ∧
    (Instr.execute 0x04 [] .fixed8 2).wf = false ∧ (Instr.execute 0x06 [] .selfdesc 2).wf = false := by
  decide +kernel

/-! ### Decoding, from words written out from 30_encoding.md -/

/-- R72: `crc_op` 00, 01, 10, 11. -/
theorem test_decode_crc_port :
    decode (.crc 0b00#2 0x55) = .ok .crcNop ∧ decode (.crc 0b01#2 0x55) = .ok .crcInit ∧
    decode (.crc 0b10#2 0xA5) = .ok (.crcUpdate 0b10100101) ∧ decode (.crc 0b11#2 0) = .ok .crcReserved := by
  decide +kernel

/-- R71: `fn` 0x03, 0x06, 0x10, another. -/
theorem test_decode_command_port :
    decode (.cmd 0b00000011 (-1) (Number.ofInt 65535) []) = .ok (.readWords (-1) 65535) ∧
    decode (.cmd 0b00000110 9 ⟨5007, 9⟩ []) = .ok (.writeWord 9 ⟨5007, 9⟩) ∧
    decode (.cmd 0b00010000 80 (Number.ofInt 0) [Number.ofInt 1]) = .ok (.writeWords 80 [Number.ofInt 1]) ∧
    decode (.cmd 0b00000100 0 (Number.ofInt 1) []) = .ok (.cmdReserved 4 0 (Number.ofInt 1) []) := by
  decide +kernel

/-- R62, R63, R64 with V31, V39, V45. -/
theorem test_decode_request :
    decode (.tx [0x01, 0x03, 0x00, 0x08, 0x00, 0x02, 0x45, 0xC9]) = .ok (.reqRead 0x01 8 2 0xC945) ∧
    decode (.tx [0x01, 0x06, 0x00, 0x08, 0x04, 0xB0, 0x0B, 0x7C]) = .ok (.reqWSingle 0x01 8 1200 0x7C0B) ∧
    decode (.tx [0x01, 0x10, 0x00, 0x50, 0x00, 0x03, 0x06, 0x01, 0xF4, 0x00, 0x64, 0x02, 0x58, 0x14, 0x80]) =
      .ok (.reqWMulti 0x01 80 [500, 100, 600] 0x8014) := by
  decide +kernel

/-- R65 to R68 with V71, V75, V77, V89. -/
theorem test_decode_response :
    decode (.rx [0x01, 0x03, 0x02, 0x00, 0x64, 0xB9, 0xAF]) = .ok (.rspRead 0x01 [0x00, 0x64] 0xAFB9) ∧
    decode (.rx [0x01, 0x06, 0x00, 0x08, 0x04, 0xB0, 0x0B, 0x7C]) = .ok (.rspWSingle 0x01 8 1200 0x7C0B) ∧
    decode (.rx [0x01, 0x10, 0x00, 0x50, 0x00, 0x03, 0x80, 0x19]) = .ok (.rspWMulti 0x01 80 3 0x1980) ∧
    decode (.rx [0x01, 0x83, 0x02, 0xC0, 0xF1]) = .ok (.rspExc 0x01 0x83 0x02 0xF1C0) := by
  decide +kernel

/-- R76: the functions by name, in the order of the table. -/
theorem test_decode_functions :
    decode (.call (.crc16 [1])) = .ok (.crc16 [1]) ∧
    decode (.call (.computeCrc [1])) = .ok (.computeCrc [1]) ∧
    decode (.call (.appendCrc [1])) = .ok (.appendCrc [1]) ∧
    decode (.call (.isValid [1])) = .ok (.isValid [1]) ∧
    decode (.call (.buildFrame 6 [1])) = .ok (.buildFrame 6 [1]) ∧
    decode (.call (.encRead 8 2)) = .ok (.encRead 8 2) ∧
    decode (.call (.encWSingle 8 2)) = .ok (.encWSingle 8 2) ∧
    decode (.call (.encWMulti 8 [2])) = .ok (.encWMulti 8 [2]) ∧
    decode (.call (.rxNeed 1 3 4 .selfdesc)) = .ok (.rxNeed 1 3 4 .selfdesc) ∧
    decode (.call (.validate [1] 3 .selfdesc 2)) = .ok (.validate [1] 3 .selfdesc 2) ∧
    decode (.call (.excClass 2)) = .ok (.excClass 2) ∧
    decode (.call (.toWord ⟨3, 1⟩)) = .ok (.toWord ⟨3, 1⟩) ∧
    decode (.call (.attempt [1] 3 .selfdesc 2)) = .ok (.attempt [1] 3 .selfdesc 2) ∧
    decode (.call (.execute 3 [1] .selfdesc 2)) = .ok (.execute 3 [1] .selfdesc 2) := by
  decide +kernel

/-- The bytes of a frame that is no row's are rejected by name. -/
theorem test_decode_rejects :
    decode (.tx [0x01, 0x04, 0, 0, 0, 0, 0, 0]) = .error .noRequestRow ∧
    decode (.tx [0x01, 0x03, 0, 0]) = .error .requestLength ∧
    decode (.tx [0x01, 0x10, 0, 0, 0, 1, 4, 0, 0, 0, 0, 0, 0]) = .error .requestLength ∧
    decode (.rx [0x01, 0x04, 0, 0, 0]) = .error .noResponseRow ∧
    decode (.rx [0x01, 0x03, 2, 0, 0, 0]) = .error .responseLength := by
  decide +kernel

/-! ### The CRC unit -/

/-- V18a. -/
theorem test_crcNop : after State.crc (exec .crcNop { idle with crc := 0x807E }) = some 0x807E := by decide +kernel

/-- V18b. -/
theorem test_crcInit : after State.crc (exec .crcInit { idle with crc := 0x1234 }) = some 0xFFFF := by decide +kernel

/-- V17a, V17k. -/
theorem test_crcUpdate :
    after State.crc (exec (.crcUpdate 0x01) { idle with crc := 0xFFFF }) = some 0x807E ∧
    after State.crc (exec (.crcUpdate 0x56) { idle with crc := 0x1234 }) = some 0xE993 := by decide +kernel

/-- V18d. -/
theorem test_crcReserved : refusal (exec .crcReserved idle) = some .reservedCrcOp := by decide +kernel

/-- V7, V12. -/
theorem test_crc16 :
    after State.ret (exec (.crc16 [0x31, 0x32, 0x33, 0x34, 0x35, 0x36, 0x37, 0x38, 0x39]) idle) = some (.word 0x4B37) ∧
    after State.ret (exec (.crc16 [0x01, 0x06, 0x00, 0x08, 0x04, 0xB0, 0x7C, 0x0B]) idle) = some (.word 0xD667) := by
  decide +kernel

/-- V10. -/
theorem test_computeCrc :
    after State.ret (exec (.computeCrc [0x01, 0x06, 0x00, 0x08, 0x04, 0xB0]) idle) = some (.bytes [0x0B, 0x7C]) := by
  decide +kernel

/-- V19b, V19c. -/
theorem test_appendCrc :
    after State.ret (exec (.appendCrc [0x01, 0x03]) idle) = some (.bytes [0x01, 0x03, 0x40, 0x21]) ∧
    after State.ret (exec (.appendCrc [0x01, 0x03, 0x40, 0x21]) idle) =
      some (.bytes [0x01, 0x03, 0x40, 0x21, 0x00, 0x00]) := by decide +kernel

/-- V23, V24d. -/
theorem test_isValid :
    after State.ret (exec (.isValid [0x01, 0x06, 0x00, 0x08, 0x04, 0xB0, 0x0B, 0x7C]) idle) = some (.bool true) ∧
    after State.ret (exec (.isValid [0x01, 0x06, 0x00, 0x08, 0x04, 0xB0, 0x0A, 0x7C]) idle) = some (.bool false) := by
  decide +kernel

/-- The worked trace of 40_crc.md section 6, table form on two bytes: `01` then `06`. -/
theorem test_crcStepBytes :
    crcStepBytes 0xFF 0xFF 0x01 = (0x7E, 0x80) ∧ crcStepBytes 0x7E 0x80 0x06 = (0x80, 0x22) ∧
    crcStepTable 0x1234 0x56 = 0xE993 := by decide +kernel

/-! ### The encoder and the decoder of frames -/

/-- R110's example; V42 with another `DEV_ADDR`. -/
theorem test_buildFrame :
    after State.ret (exec (.buildFrame 0x06 [0x00, 0x08, 0x04, 0xB0]) idle) =
      some (.bytes [0x01, 0x06, 0x00, 0x08, 0x04, 0xB0, 0x0B, 0x7C]) ∧
    after State.ret (exec (.buildFrame 0x06 [0x00, 0x08, 0x04, 0xB0]) { idle with devAddr := 2 }) =
      some (.bytes [0x02, 0x06, 0x00, 0x08, 0x04, 0xB0, 0x0B, 0x4F]) := by decide +kernel

/-- V31. -/
theorem test_encRead : after State.ret (exec (.encRead 8 2) idle) = some (.bytes [0x00, 0x08, 0x00, 0x02]) := by
  decide +kernel

/-- V40. -/
theorem test_encWSingle : after State.ret (exec (.encWSingle 9 500) idle) = some (.bytes [0x00, 0x09, 0x01, 0xF4]) := by
  decide +kernel

/-- V45, V46. -/
theorem test_encWMulti :
    after State.ret (exec (.encWMulti 80 [500, 100, 600]) idle) =
      some (.bytes [0x00, 0x50, 0x00, 0x03, 0x06, 0x01, 0xF4, 0x00, 0x64, 0x02, 0x58]) ∧
    after State.ret (exec (.encWMulti 80 []) idle) = some (.bytes [0x00, 0x50, 0x00, 0x00, 0x00]) := by decide +kernel

/-- V52, V60. -/
theorem test_rxNeed :
    after State.ret (exec (.rxNeed 0x01 0x03 0xFF .selfdesc) idle) = some (.nat 260) ∧
    after State.ret (exec (.rxNeed 0x01 0x80 0xFF .selfdesc) idle) = some (.nat 5) := by decide +kernel

/-- V70, V82. -/
theorem test_validate :
    after State.ret (exec (.validate good 0x03 .selfdesc 2) idle) = some (.verdict (.ok [1200, 500])) ∧
    after State.ret (exec (.validate [0x02, 0x83, 0x02, 0x30, 0xF1] 0x03 .selfdesc 2) idle) =
      some (.verdict (.frameFault .frameAddress)) := by decide +kernel

/-- R138: 0x0A and the unnamed 0x09. -/
theorem test_excClass :
    after State.ret (exec (.excClass 0x0A) idle) = some (.excClass .gatewayUnavailable) ∧
    after State.ret (exec (.excClass 0x09) idle) = some (.excClass .unknown) := by decide +kernel

/-- V121, V125. -/
theorem test_toWord :
    after State.ret (exec (.toWord ⟨12009, 9⟩) idle) = some (.int 1200) ∧
    after State.ret (exec (.toWord ⟨-3, 1⟩) idle) = some (.int (-1)) := by decide +kernel

/-! ### Commands -/

/-- V134 and V132. -/
theorem test_readWords :
    after State.txFrame (exec (.readWords 65535 1) idle) =
      some [0x01, 0x03, 0xFF, 0xFF, 0x00, 0x01, 0x84, 0x2E] ∧
    after State.lastFault (exec (.readWords (-1) 2) idle) = some .usageBadAddress := by decide +kernel

/-- V141 and V138. -/
theorem test_writeWord :
    after State.txFrame (exec (.writeWord 9 ⟨5007, 9⟩) idle) =
      some [0x01, 0x06, 0x00, 0x09, 0x01, 0xF4, 0x59, 0xDF] ∧
    after State.lastFault (exec (.writeWord 9 (Number.ofInt 70000)) idle) = some .usageBadOperand := by decide +kernel

/-- V47 and V145. -/
theorem test_writeWords :
    after State.txFrame (exec (.writeWords 18 [Number.ofInt 1]) idle) =
      some [0x01, 0x10, 0x00, 0x12, 0x00, 0x01, 0x02, 0x00, 0x01, 0x64, 0xE2] ∧
    after State.lastFault (exec (.writeWords (-1) (List.replicate 128 (Number.ofInt 0))) idle) =
      some .usageBadAddress := by decide +kernel

/-- V131, V147. -/
theorem test_cmdReserved :
    after (fun t => (t.lastFault, t.usage, t.seq)) (exec (.cmdReserved 4 (-1) (Number.ofInt 1) []) idle) =
      some (.usageBadFunction, true, .idle) ∧
    after id (exec (.cmdReserved 4 0 (Number.ofInt 1) []) dead) = some dead := by decide +kernel

/-! ### Frames on the wire -/

/-- V155 and its frame. -/
theorem test_reqRead :
    after (fun t => (t.seq, t.tp.bus)) (exec (.reqRead 0x01 8 2 0xC945) (reading .send 0 0 [] (tpOf [] [⟨[], .ok⟩]))) =
      some (.recvHead, [.send [0x01, 0x03, 0x00, 0x08, 0x00, 0x02, 0x45, 0xC9] .ok]) ∧
    after State.seq (exec (.reqRead 0x01 9 2 0xC945) (reading .send 0 0 [] (tpOf [] [⟨[], .ok⟩]))) = some .send := by
  decide +kernel

/-- V156. -/
theorem test_reqWSingle :
    after (fun t => (t.seq, t.fails, t.lastFault))
      (exec (.reqWSingle 0x01 8 1200 0x7C0B) (writing .send true (tpOf [] [⟨[], .fault⟩]))) =
      some (.flush, 1, .transportError) := by decide +kernel

/-- R155 of a write-multiple frame (V47). -/
theorem test_reqWMulti :
    after State.seq (exec (.reqWMulti 0x01 18 [1] 0xE264) (writingMany .send (tpOf [] [⟨[], .ok⟩]))) =
      some .recvHead := by decide +kernel

/-- V163, from the first byte on; the frame of V78 instead. -/
theorem test_rspRead :
    after (fun t => (t.seq, t.done, t.resultList, t.tp.inBuf))
      (exec (.rspRead 0x01 [0x04, 0xB0, 0x01, 0xF4] 0xF3FA) (reading .recvHead 0 0 [] (tpOf [] []))) =
      some (.idle, true, [1200, 500], []) ∧
    after (fun t => (t.seq, t.fails, t.lastFault))
      (exec (.rspRead 0x01 [0x04, 0xB0, 0x01, 0xF5] 0xF3FA) (reading .recvHead 0 0 [] (tpOf [] []))) =
      some (.flush, 1, .frameCrc) := by decide +kernel

/-- V76: a wrong echo with a good CRC is accepted. -/
theorem test_rspWSingle :
    after (fun t => (t.seq, t.done, t.resultList))
      (exec (.rspWSingle 0x01 8 1201 0xBCCA) (writing .recvHead true (tpOf [] []))) =
      some (.idle, true, [8, 1201]) := by decide +kernel

/-- V77. -/
theorem test_rspWMulti :
    after (fun t => (t.seq, t.done, t.resultList))
      (exec (.rspWMulti 0x01 80 3 0x1980) (writingMany .recvHead (tpOf [] []))) = some (.idle, true, [80, 3]) := by
  decide +kernel

/-- V164; and in `IDLE` the frame only waits in the input buffer (R24). -/
theorem test_rspExc :
    after (fun t => (t.seq, t.fails, t.lastFault, t.excCode))
      (exec (.rspExc 0x01 0x83 0x02 0xF1C0) (reading .recvHead 0 0 [] (tpOf [] []))) =
      some (.flush, 1, .deviceException, 2) ∧
    after (fun t => t.tp.inBuf) (exec (.rspExc 0x01 0x83 0x02 0xF1C0) idle) =
      some [0x01, 0x83, 0x02, 0xC0, 0xF1] := by decide +kernel

/-! ### The exchange -/

/-- R185: the send decides first; then the response of V70. -/
theorem test_attempt :
    after State.ret (exec (.attempt [1, 2] 0x03 .selfdesc 2) { idle with tp := tpOf [7] [⟨[], .ok⟩, ⟨[], .fault⟩] }) =
      some (.attempt (.failed (.plain .transportError))) ∧
    after State.ret (exec (.attempt [1, 2] 0x03 .selfdesc 2) { idle with tp := tpOf [7] (cleanExchange good) }) =
      some (.attempt (.ok [1200, 500])) := by decide +kernel

/-- R166 for an `fn` with bit 7 set: silence is a timeout, and the two result words of R135 are read from the exception frame of
V89, as far as its five bytes go. -/
theorem test_attempt_any_fn :
    after State.ret (exec (.attempt [1, 2] 0x83 .fixed8 0)
      { idle with tp := tpOf [] [⟨[], .ok⟩, ⟨[1], .ok⟩, ⟨[], .ok⟩, ⟨[], .ok⟩] }) =
      some (.attempt (.failed (.plain .transportTimeout))) ∧
    (after State.ret (exec (.attempt [1, 2] 0x83 .fixed8 0)
      { idle with tp := tpOf [] (cleanExchange [0x01, 0x83, 0x02, 0xC0, 0xF1]) })).map
      (fun r => match r with
        | .attempt (.ok (w :: _)) => some w
        | _ => none) = some (some 0x02C0) := by decide +kernel

/-- V168 with `M = 2`, and V169 with `k = 1`. -/
theorem test_execute :
    after (fun t => (t.seq, t.fails, t.fatalCause, sends t.tp.bus))
      (exec (.execute 0x03 [0, 8, 0, 2] .selfdesc 2)
        { idle with tp := tpOf [] [⟨[], .ok⟩, ⟨[], .ok⟩, ⟨[], .fault⟩, ⟨[], .ok⟩, ⟨[], .ok⟩, ⟨[], .fault⟩] }) =
      some (.fatal, 2, .exhaustedRetries, 2) ∧
    after (fun t => (t.seq, t.fails, t.ret, sends t.tp.bus))
      (exec (.execute 0x03 [0, 8, 0, 2] .selfdesc 2)
        { idle with tp := tpOf [] ([⟨[], .ok⟩, ⟨[], .ok⟩, ⟨[], .fault⟩] ++ cleanExchange good) }) =
      some (.idle, 1, .words [1200, 500], 2) := by decide +kernel

/-! ### The sequencer, the port, reset -/

/-- V153, V154. -/
theorem test_delay_flush :
    after (fun t => (t.seq, t.firstWriteDone)) (step (writing .delay false (tpOf [] []))) = some (.flush, true) ∧
    after (fun t => (t.seq, t.rxlen, t.tp.inBuf)) (step (reading .flush 6 9 good (tpOf [1, 2, 3] [⟨[9], .ok⟩]))) =
      some (.send, 0, [9]) := by decide +kernel

/-- V158, V162. -/
theorem test_receive :
    after (fun t => (t.seq, t.rxlen, t.rxneed)) (step (reading .recvHead 2 0 good (tpOf [4, 4] [⟨[], .ok⟩]))) =
      some (.recvBody, 3, 9) ∧
    after (fun t => (t.seq, t.rxlen)) (step (reading .recvBody 8 9 good (tpOf [] [⟨[0xF3], .ok⟩]))) =
      some (.check, 9) := by decide +kernel

/-- V161, V165. -/
theorem test_receive_faults :
    after (fun t => (t.seq, t.fails, t.lastFault)) (step (reading .recvBody 7 9 good (tpOf [4] [⟨[], .fault⟩]))) =
      some (.flush, 1, .transportTimeout) ∧
    after (fun t => (t.seq, t.fatalCause, t.fails)) (step (reading .recvBody 7 9 good (tpOf [4] [⟨[], .fatalFault⟩]))) =
      some (.fatal, .transportFatal, 0) := by decide +kernel

/-- V167, V148: reset in any phase; a command waits while one is in progress. -/
theorem test_port :
    after State.seq (step { dead with port := [.reset] }) = some .idle ∧
    after (fun t => (t.seq, t.port)) (step { reading .flush 0 0 [] (tpOf [] []) with
      port := [.op (.cmd 3 0 (Number.ofInt 1) [])] }) =
      some (.send, [.op (.cmd 3 0 (Number.ofInt 1) [])]) := by decide +kernel

/-- V83: the bytes of a frame that is no row's are received and fail the attempt. R44: `connect` answers `Fault`, never the
fatal fault, and `close` leaves the buffer. -/
theorem test_line_and_host_calls :
    after (fun t => (t.seq, t.fails, t.lastFault)) (step { reading .recvHead 0 0 [] (tpOf [] []) with
      port := [.op (.rx [0x01, 0x04, 0x04, 0x00, 0x01, 0x00, 0x02, 0x2B, 0x85])] }) =
      some (.flush, 1, .frameFunction) ∧
    after State.ret (step { idle with port := [.connect], tp := tpOf [] [⟨[], .fatalFault⟩] }) =
      some (.answer .fault) ∧
    after (fun t => t.tp.inBuf) (step { idle with port := [.close], tp := tpOf [5] [⟨[6], .ok⟩] }) = some [5] := by
  decide +kernel

/-- D29, R216: `RESULT` is not read while `DONE = 0`; the configuration is not written while `BUSY = 1`. -/
theorem test_host_refusals :
    refusal (step { idle with port := [.read .result] }) = some .resultNotReady ∧
    refusal (step { reading .flush 0 0 [] (tpOf [] []) with port := [.writeConfig .devAddr 3] }) =
      some .configNotIdle ∧
    refusal (step { idle with port := [.writeConfig .maxAttempts 0] }) = some .illegalConfig := by decide +kernel

/-- R180: the codes of `LAST_FAULT` and `FATAL_CAUSE` as the host reads them. -/
theorem test_host_reads :
    after State.ret (step { dead with port := [.read .lastFault] }) = some (.nat 9) ∧
    after State.ret (step { dead with port := [.read .fatalCause] }) = some (.nat 1) := by decide +kernel

/-! ### Witnesses: legal states -/

theorem inv_idle : idle.Inv := by constructor <;> decide +kernel

theorem inv_dead : dead.Inv := by constructor <;> decide +kernel

theorem inv_delay : (writing .delay false (tpOf [] [])).Inv := by constructor <;> decide +kernel

theorem inv_flush : (reading .flush 6 9 good (tpOf [1] [])).Inv := by constructor <;> decide +kernel

theorem inv_send (tp : Transport) : (reading .send 0 0 [] tp).Inv :=
  inv_tp (s := reading .send 0 0 [] (tpOf [] [])) (by constructor <;> decide +kernel) tp

/-- The head with `n` bytes received, at both ends of its range. -/
theorem inv_head (tp : Transport) : (reading .recvHead 0 0 [] tp).Inv ∧ (reading .recvHead 2 0 good tp).Inv :=
  ⟨inv_tp (s := reading .recvHead 0 0 [] (tpOf [] [])) (by constructor <;> decide +kernel) tp,
    inv_tp (s := reading .recvHead 2 0 good (tpOf [] [])) (by constructor <;> decide +kernel) tp⟩

/-- The body at both ends of its range. -/
theorem inv_body (tp : Transport) : (reading .recvBody 3 9 good tp).Inv ∧ (reading .recvBody 8 9 good tp).Inv :=
  ⟨inv_tp (s := reading .recvBody 3 9 good (tpOf [] [])) (by constructor <;> decide +kernel) tp,
    inv_tp (s := reading .recvBody 8 9 good (tpOf [] [])) (by constructor <;> decide +kernel) tp⟩

/-- V81 with the right length: good CRC, another device. -/
def foreign : List Byte := [0x02, 0x83, 0x02, 0x30, 0xF1]

/-- V89: an exception response. -/
def exception : List Byte := [0x01, 0x83, 0x02, 0xC0, 0xF1]

theorem inv_check (tp : Transport) : (reading .check 9 9 good tp).Inv ∧ (reading .check 5 5 foreign tp).Inv ∧
    (reading .check 5 5 exception tp).Inv :=
  ⟨inv_tp (s := reading .check 9 9 good (tpOf [] [])) (by constructor <;> decide +kernel) tp,
    inv_tp (s := reading .check 5 5 foreign (tpOf [] [])) (by constructor <;> decide +kernel) tp,
    inv_tp (s := reading .check 5 5 exception (tpOf [] [])) (by constructor <;> decide +kernel) tp⟩

theorem inv_awaiting_single : (writing .recvHead true (tpOf [] [])).Inv := by constructor <;> decide +kernel

theorem inv_awaiting_many : (writingMany .recvHead (tpOf [] [])).Inv := by constructor <;> decide +kernel

/-- The state after a step that answers one. -/
def nextOr (d : State) : Result → State
  | .next t => t
  | _ => d

theorem nextOr_eq (d : State) {r : Result} (h : (after (fun _ => ()) r).isSome = true) : r = .next (nextOr d r) := by
  cases r with
  | next t => rfl
  | fault f => cases h
  | refused e => cases h

/-! ### Witnesses: the hypotheses of each statement hold together somewhere -/

theorem witness_DecodeOfEncode : (Instr.reqWMulti 0x01 18 [1] 0xE264).wf ∧ (Instr.rspRead 1 (List.replicate 255 0) 0).wf ∧
    (Instr.cmdReserved 0xFF 0 (Number.ofInt 0) []).wf := by decide +kernel

theorem witness_FramesAreLossless :
    decode (.tx [0x01, 0x03, 0x00, 0x08, 0x00, 0x02, 0x45, 0xC9]) = .ok (.reqRead 0x01 8 2 0xC945) ∧
    decode (.rx exception) = .ok (.rspExc 0x01 0x83 0x02 0xF1C0) := by decide +kernel

theorem witness_StepRunsDecoded :
    (decode (.crc 1 0) = .ok .crcInit ∧ idle.busy = false) ∧
    (decode (.rx exception) = .ok (.rspExc 0x01 0x83 0x02 0xF1C0) ∧ (PortItem.op (.rx exception)).waits = false) := by
  decide +kernel

theorem witness_StepIsSequencer :
    idle.port = [] ∧ (reading .flush 0 0 [] (tpOf [] [])).busy = true ∧ (PortItem.op (.crc 1 0)).waits = true := by
  decide +kernel

theorem witness_ZeroResidue : crc16 ([0x01, 0x03] ++ [0x40, 0x21]) = 0 ∧ crc16 ([] ++ [0xFF, 0xFF]) = 0 := by
  decide +kernel

theorem witness_SingleBitErrorDetected : 0 < 8 * (appendCrc []).length ∧ 15 < 8 * (appendCrc []).length := by
  decide +kernel

theorem witness_BuildFrameReturns : (List.replicate 259 (0 : Byte)).length ≤ 259 := by decide +kernel

theorem witness_EncoderPayloads : (List.replicate 127 (0 : Word)).length ≤ 127 := by decide +kernel

/-- For the last three clauses: a two-byte exception head with CRC 0, an exception frame for an `fn` with bit 7 set. -/
theorem witness_OutsideDomainRuns :
    259 < (List.replicate 260 (0 : Byte)).length ∧ 127 < (List.replicate 128 (0 : Word)).length ∧
    (match validate 0xFF [0xFF, 0xFF] 0x03 .fixed8 0 with | .deviceException _ => true | _ => false) = true ∧
    (match validate 0x01 exception 0x83 .selfdesc 1 with | .ok _ => true | _ => false) = true ∧
    (match validate 0x01 exception 0x83 .fixed8 0 with | .ok _ => true | _ => false) = true := by decide +kernel

/-- One frame for each clause: V78, V80 (with its complete length), V89, V83, V86, V70, V75; each is complete. -/
theorem witness_ValidateInOrder :
    (completeFrame [0x01, 0x03, 0x04, 0x04, 0xB0, 0x01, 0xF5, 0xFA, 0xF3] .selfdesc = true ∧
      crc16 [0x01, 0x03, 0x04, 0x04, 0xB0, 0x01, 0xF5, 0xFA, 0xF3] ≠ 0) ∧
    (completeFrame foreign .selfdesc = true ∧ crc16 foreign = 0 ∧ (0x02 : Byte) ≠ idle.devAddr) ∧
    (completeFrame exception .selfdesc = true ∧ crc16 exception = 0 ∧ (0x83 : Byte).getLsbD 7 = true) ∧
    (completeFrame [0x01, 0x04, 0x04, 0x00, 0x01, 0x00, 0x02, 0x2B, 0x85] .selfdesc = true ∧
      crc16 [0x01, 0x04, 0x04, 0x00, 0x01, 0x00, 0x02, 0x2B, 0x85] = 0 ∧ (0x04 : Byte).getLsbD 7 = false) ∧
    (completeFrame [0x01, 0x03, 0x02, 0x04, 0xB0, 0xBB, 0x30] .selfdesc = true ∧
      crc16 [0x01, 0x03, 0x02, 0x04, 0xB0, 0xBB, 0x30] = 0 ∧ (0x02 : Byte).toNat ≠ 2 * (2 : Word).toNat) ∧
    (completeFrame good .selfdesc = true ∧ crc16 good = 0 ∧ (0x04 : Byte).toNat = 2 * (2 : Word).toNat) ∧
    (completeFrame [0x01, 0x06, 0x00, 0x08, 0x04, 0xB0, 0x0B, 0x7C] .fixed8 = true ∧ (0x06 : Byte).getLsbD 7 = false ∧
      crc16 [0x01, 0x06, 0x00, 0x08, 0x04, 0xB0, 0x0B, 0x7C] = 0) := by decide +kernel

theorem witness_ResultWords :
    (completeFrame good .selfdesc = true ∧ validate 0x01 good 0x03 .selfdesc 2 = .ok [1200, 500]) ∧
    (completeFrame [0x01, 0x03, 0x00, 0x20, 0xF0] .selfdesc = true ∧
      validate 0x01 [0x01, 0x03, 0x00, 0x20, 0xF0] 0x03 .selfdesc 0 = .ok []) ∧
    (completeFrame [0x01, 0x10, 0x00, 0x50, 0x00, 0x03, 0x80, 0x19] .fixed8 = true ∧
      validate 0x01 [0x01, 0x10, 0x00, 0x50, 0x00, 0x03, 0x80, 0x19] 0x10 .fixed8 0 = .ok [80, 3]) := by
  decide +kernel

theorem witness_CountOver127IsFatal : idle.Inv ∧ idle.seq = .idle ∧ 128 ≤ (128 : Word).toNat ∧ goodAddress 0 :=
  ⟨inv_idle, rfl, by decide, by unfold goodAddress; decide⟩

theorem witness_ExcClassTable : (0x00 : Byte) ∉ ([1, 2, 3, 4, 5, 6, 7, 8, 0x0A, 0x0B] : List Byte) ∧
    (0x09 : Byte) ∉ ([1, 2, 3, 4, 5, 6, 7, 8, 0x0A, 0x0B] : List Byte) := by decide +kernel

theorem witness_ToWordTruncates : 0 ≤ (Number.mk 0 1).num ∧ (Number.mk (-1) 1).num ≤ 0 ∧ (Number.ofInt 7).denPred = 0 := by
  decide +kernel

/-- V130, V132, V133, V139, V127, V142, V144, at the ends of the ranges. -/
theorem witness_UsageFaults :
    idle.seq = .idle ∧ ((0x04 : Byte) ≠ 0x03 ∧ (0x04 : Byte) ≠ 0x06 ∧ (0x04 : Byte) ≠ 0x10) ∧
    ¬ goodAddress (-1) ∧ ¬ goodAddress 65536 ∧ goodAddress 0 ∧ goodAddress 65535 ∧
    ¬ goodValue (Number.ofInt (-1)) ∧ ¬ goodValue (Number.ofInt 65536) ∧
    127 < (List.replicate 128 (Number.ofInt 0)).length ∧ Number.ofInt 65536 ∈ [Number.ofInt 1, Number.ofInt 65536] := by
  unfold goodAddress goodValue; decide +kernel

theorem witness_ReadWordsAccepted : idle.Inv ∧ idle.seq = .idle ∧ goodAddress 0 ∧ goodAddress 65535 :=
  ⟨inv_idle, rfl, by unfold goodAddress; decide, by unfold goodAddress; decide⟩

/-- V124, V126: the least and the greatest write value. -/
theorem witness_WriteWordAccepted :
    idle.Inv ∧ idle.seq = .idle ∧ goodAddress 65535 ∧ goodValue ⟨-1, 1⟩ ∧ goodValue ⟨655359, 9⟩ :=
  ⟨inv_idle, rfl, by unfold goodAddress; decide, by unfold goodValue; decide, by unfold goodValue; decide⟩

theorem witness_WriteWordsAccepted :
    idle.Inv ∧ idle.seq = .idle ∧ goodAddress 80 ∧ (List.replicate 127 (Number.ofInt 65535)).length ≤ 127 ∧
    ∀ x ∈ List.replicate 127 (Number.ofInt 65535), goodValue x := by
  refine ⟨inv_idle, rfl, by unfold goodAddress; decide, by simp, fun x hx => ?_⟩
  rw [List.eq_of_mem_replicate hx]
  unfold goodValue; decide

theorem witness_CommandsOnlyInIdle :
    dead.seq ≠ .idle ∧ (reading .flush 0 0 [] (tpOf [] [])).seq ≠ .idle := by decide +kernel

theorem witness_CrcAfterBuildAndCheck :
    idle.Inv ∧ idle.seq = .idle ∧ (nextOr idle (exec (.readWords 8 2) idle)).seq ≠ .idle ∧
    exec (.readWords 8 2) idle = .next (nextOr idle (exec (.readWords 8 2) idle)) ∧
    ((reading .check 9 9 good (tpOf [] [])).Inv ∧ ∃ t, tick (reading .check 9 9 good (tpOf [] [])) = .next t) :=
  ⟨inv_idle, rfl, by decide +kernel, nextOr_eq idle (by decide +kernel), (inv_check _).1, _, rfl⟩

theorem witness_DelayOnce :
    (writing .delay false (tpOf [] [])).seq = .delay ∧
    noReset (writing .flush true (tpOf [] [])) ∧ (writing .flush true (tpOf [] [])).firstWriteDone = true ∧
    ∃ t, step (writing .flush true (tpOf [] [])) = .next t :=
  ⟨rfl, nofun, rfl, _, rfl⟩

theorem witness_FlushPhase : (reading .flush 6 9 good (tpOf [1, 2, 3] [])).seq = .flush := rfl

theorem witness_SendPhase :
    (reading .send 0 0 [] (tpOf [] [⟨[], .ok⟩])).seq = .send ∧
    (reading .send 0 0 [] (tpOf [] [⟨[], .ok⟩])).tp.turn.answer = .ok ∧
    (reading .send 0 0 [] (tpOf [] [⟨[], .fault⟩])).tp.turn.answer = .fault ∧
    (reading .send 0 0 [] (tpOf [] [⟨[], .fatalFault⟩])).tp.turn.answer = .fatalFault := ⟨rfl, rfl, rfl, rfl⟩

/-- The first and last byte of the head and of the body. -/
theorem witness_ReceivePhase (tp : Transport) :
    (reading .recvHead 0 0 [] tp).Inv ∧ (reading .recvHead 0 0 [] tp).receiving = true ∧
    (reading .recvHead 2 0 good tp).Inv ∧ (reading .recvHead 2 0 good tp).receiving = true ∧
    (reading .recvBody 3 9 good tp).Inv ∧ (reading .recvBody 3 9 good tp).receiving = true ∧
    (reading .recvBody 8 9 good tp).Inv ∧ (reading .recvBody 8 9 good tp).receiving = true :=
  ⟨(inv_head tp).1, rfl, (inv_head tp).2, rfl, (inv_body tp).1, rfl, (inv_body tp).2, rfl⟩

theorem witness_AcceptedFrameCompletes :
    (reading .check 9 9 good (tpOf [] [])).Inv ∧ (reading .check 9 9 good (tpOf [] [])).seq = .check ∧
    validate 0x01 (reading .check 9 9 good (tpOf [] [])).rxFrame 0x03 .selfdesc 2 = .ok [1200, 500] :=
  ⟨(inv_check _).1, rfl, by decide +kernel⟩

theorem witness_RejectedFrameIsOneFailedAttempt :
    (reading .check 5 5 foreign (tpOf [] [])).Inv ∧ (reading .check 5 5 exception (tpOf [] [])).Inv ∧
    validate 0x01 (reading .check 5 5 foreign (tpOf [] [])).rxFrame 0x03 .selfdesc 2 = .frameFault .frameAddress ∧
    validate 0x01 (reading .check 5 5 exception (tpOf [] [])).rxFrame 0x03 .selfdesc 2 = .deviceException 2 :=
  ⟨(inv_check _).2.1, (inv_check _).2.2, by decide +kernel, by decide +kernel⟩

/-- A step of the sequencer in every phase. -/
theorem witness_SequencerTransitions :
    (idle.Inv ∧ ∃ t, tick idle = .next t) ∧ (dead.Inv ∧ ∃ t, tick dead = .next t) ∧
    ((writing .delay false (tpOf [] [])).Inv ∧ ∃ t, tick (writing .delay false (tpOf [] [])) = .next t) ∧
    ((reading .flush 6 9 good (tpOf [1] [])).Inv ∧ ∃ t, tick (reading .flush 6 9 good (tpOf [1] [])) = .next t) ∧
    ((reading .send 0 0 [] (tpOf [] [])).Inv ∧ ∃ t, tick (reading .send 0 0 [] (tpOf [] [])) = .next t) ∧
    ((reading .recvHead 2 0 good (tpOf [] [⟨[4], .ok⟩])).Inv ∧
      ∃ t, tick (reading .recvHead 2 0 good (tpOf [] [⟨[4], .ok⟩])) = .next t) ∧
    ((reading .recvBody 8 9 good (tpOf [] [⟨[0xF3], .ok⟩])).Inv ∧
      ∃ t, tick (reading .recvBody 8 9 good (tpOf [] [⟨[0xF3], .ok⟩])) = .next t) ∧
    ((reading .check 9 9 good (tpOf [] [])).Inv ∧ ∃ t, tick (reading .check 9 9 good (tpOf [] [])) = .next t) :=
  ⟨⟨inv_idle, _, rfl⟩, ⟨inv_dead, _, rfl⟩, ⟨inv_delay, _, rfl⟩, ⟨inv_flush, _, rfl⟩, ⟨inv_send _, _, rfl⟩,
    ⟨(inv_head _).2, _, rfl⟩, ⟨(inv_body _).2, _, rfl⟩, ⟨(inv_check _).1, _, rfl⟩⟩

theorem witness_FatalIsSticky :
    dead.seq = .fatal ∧ noReset { dead with port := [.op (.cmd 3 0 (Number.ofInt 1) [])] } ∧
    ∃ t, step { dead with port := [.op (.cmd 3 0 (Number.ofInt 1) [])] } = .next t :=
  ⟨rfl, nofun, dead, by rfl⟩

theorem witness_StepKeepsInvariant :
    (reading .flush 6 9 good (tpOf [1] [])).Inv ∧ ∃ t, step (reading .flush 6 9 good (tpOf [1] [])) = .next t :=
  ⟨inv_flush, _, rfl⟩

theorem witness_ResetStep : ({ dead with port := [.reset] } : State).port = .reset :: [] := rfl

theorem witness_NoFaultFromLegal : (reading .recvBody 8 9 good (tpOf [0xF3] [])).Inv := (inv_body _).2

theorem witness_StatusIsNotRead : ∃ t, tick (reading .check 5 5 exception (tpOf [] [])) = .next t := ⟨_, rfl⟩

theorem witness_RequestIsLatched :
    (reading .flush 6 9 good (tpOf [1] [])).busy = true ∧ noReset (reading .flush 6 9 good (tpOf [1] [])) ∧
    ∃ t, step (reading .flush 6 9 good (tpOf [1] [])) = .next t := ⟨rfl, nofun, _, rfl⟩

/-- A step that changes `RESULT`, which also ends a command in progress (V163). -/
theorem witness_ResultOnlyWithDone :
    noReset (reading .check 9 9 good (tpOf [] [])) ∧
    step (reading .check 9 9 good (tpOf [] [])) = .next (nextOr idle (step (reading .check 9 9 good (tpOf [] [])))) ∧
    (nextOr idle (step (reading .check 9 9 good (tpOf [] [])))).result ≠
      (reading .check 9 9 good (tpOf [] [])).result :=
  ⟨nofun, nextOr_eq idle (by decide +kernel), by decide +kernel⟩

theorem witness_OneFlagAtTheEnd :
    (reading .check 9 9 good (tpOf [] [])).Inv ∧ (reading .check 9 9 good (tpOf [] [])).busy = true ∧
    step (reading .check 9 9 good (tpOf [] [])) = .next (nextOr idle (step (reading .check 9 9 good (tpOf [] [])))) ∧
    (nextOr idle (step (reading .check 9 9 good (tpOf [] [])))).busy = false :=
  ⟨(inv_check _).1, rfl, nextOr_eq idle (by decide +kernel), by decide +kernel⟩

theorem witness_CommandsEnd :
    (writing .delay false (tpOf [] [])).Inv ∧ (writing .delay false (tpOf [] [])).busy = true ∧
    (writing .delay false (tpOf [] [])).port = [] := ⟨inv_delay, rfl, rfl⟩

theorem witness_ConfigurationWrites (r : ConfigReg) (v : Nat) :
    ({ idle with port := [.writeConfig r v] } : State).seq = .idle ∧
    ({ dead with port := [.writeConfig r v] } : State).seq ≠ .idle ∧ (255 : Nat) ≤ 255 ∧ 255 < 256 :=
  ⟨rfl, nofun, by decide, by decide⟩

theorem witness_HostReads :
    ({ idle with port := [.read .result], done := true } : State).done = true ∧ idle.done = false ∧
    ({ dead with port := [.read .lastFault] } : State).port = .read .lastFault :: [] := ⟨rfl, rfl, rfl⟩

/-- The three request rows in phase `SEND`. -/
theorem witness_RequestEmission :
    encode (.reqRead 0x01 8 2 0xC945) = .tx (reading .send 0 0 [] (tpOf [] [⟨[], .ok⟩])).txFrame ∧
    encode (.reqWSingle 0x01 8 1200 0x7C0B) = .tx (writing .send true (tpOf [] [⟨[], .ok⟩])).txFrame ∧
    encode (.reqWMulti 0x01 18 [1] 0xE264) = .tx (writingMany .send (tpOf [] [⟨[], .ok⟩])).txFrame ∧
    idle.seq ≠ .send := by decide +kernel

/-- The other clause of the same statement. -/
theorem witness_RequestEmission_unlisted :
    ({ idle with port := [.op (.tx [0x01, 0x04])] } : State).Inv ∧ decode (.tx [0x01, 0x04]) = .error .noRequestRow :=
  ⟨inv_port inv_idle _, by decide +kernel⟩

theorem witness_EmittedFrameIsRow :
    (reading .send 0 0 [] (tpOf [] [])).Inv ∧ (reading .send 0 0 [] (tpOf [] [])).seq = .send := ⟨inv_send _, rfl⟩

theorem witness_StrayResponse :
    encode (.rspRead 0x01 [0x04, 0xB0, 0x01, 0xF4] 0xF3FA) = .rx good ∧ idle.receiving = false ∧
    decode (.rx [0x01, 0x04, 0]) = .error .noResponseRow := by decide +kernel

theorem witness_ResponseIsReceived :
    (reading .recvHead 0 0 [] (tpOf [] [])).Inv ∧ (reading .recvHead 0 0 [] (tpOf [] [])).receiving = true ∧
    encode (.rspRead 0x01 [0x04, 0xB0, 0x01, 0xF4] 0xF3FA) = .rx good ∧
    exec (.rspRead 0x01 [0x04, 0xB0, 0x01, 0xF4] 0xF3FA) (reading .recvHead 0 0 [] (tpOf [] [])) =
      .next (nextOr idle
        (exec (.rspRead 0x01 [0x04, 0xB0, 0x01, 0xF4] 0xF3FA) (reading .recvHead 0 0 [] (tpOf [] [])))) :=
  ⟨(inv_head _).1, rfl, by decide +kernel, nextOr_eq idle (by decide +kernel)⟩

/-- The other clause of the same statement, with the frame of V83. -/
theorem witness_ResponseIsReceived_unlisted :
    let rx : List Byte := [0x01, 0x04, 0x04, 0x00, 0x01, 0x00, 0x02, 0x2B, 0x85]
    let s : State := { reading .recvHead 0 0 [] (tpOf [] []) with port := [.op (.rx rx)] }
    s.Inv ∧ s.receiving = true ∧ decode (.rx rx) = .error .noResponseRow ∧ step s = .next (nextOr idle (step s)) :=
  ⟨inv_port (inv_head _).1 _, rfl, by decide +kernel, nextOr_eq idle (by decide +kernel)⟩

theorem witness_ReadResponseCompletes :
    awaiting (reading .recvHead 0 0 [] (tpOf [] [])) ∧
    ([0x04, 0xB0, 0x01, 0xF4] : List Byte).length = 2 * (reading .recvHead 0 0 [] (tpOf [] [])).reqCount.toNat :=
  ⟨⟨(inv_head _).1, rfl, rfl, rfl⟩, rfl⟩

theorem witness_AcknowledgmentCompletes :
    (awaiting (writing .recvHead true (tpOf [] [])) ∧ (writing .recvHead true (tpOf [] [])).reqFn = 0x06) ∧
    (awaiting (writingMany .recvHead (tpOf [] [])) ∧ (writingMany .recvHead (tpOf [] [])).reqFn = 0x10) :=
  ⟨⟨⟨inv_awaiting_single, rfl, rfl, rfl⟩, rfl⟩, ⟨⟨inv_awaiting_many, rfl, rfl, rfl⟩, rfl⟩⟩

theorem witness_ExceptionResponseFails :
    awaiting (reading .recvHead 0 0 [] (tpOf [] [])) ∧ (0x80 : Byte).getLsbD 7 = true ∧ (0xFF : Byte).getLsbD 7 = true :=
  ⟨⟨(inv_head _).1, rfl, rfl, rfl⟩, rfl, rfl⟩

theorem witness_AttemptFrame : idle.seq = .idle := rfl

theorem witness_AttemptResult :
    idle.Inv ∧ idle.seq = .idle ∧ completeFrame good .selfdesc = true ∧
    ({ idle with tp := tpOf [7] (cleanExchange good ++ []) } : State).Inv ∧
    ({ idle with tp := tpOf [] [⟨[], .ok⟩, ⟨[], .fault⟩] } : State).Inv ∧
    ({ idle with tp := tpOf [] [⟨[], .ok⟩, ⟨[], .fatalFault⟩] } : State).Inv :=
  ⟨inv_idle, rfl, by decide +kernel, inv_tp inv_idle _, inv_tp inv_idle _, inv_tp inv_idle _⟩

/-- The clauses of the same statement on silence and the fatal fault: before the first byte, before the end of the head, and
before the last byte of the body. -/
theorem witness_AttemptResult_unfinished (a : Answer) :
    needsMore [] .selfdesc ∧ needsMore (good.take 2) .selfdesc ∧ needsMore (good.take 8) .selfdesc ∧
    ({ idle with tp := tpOf [] (cleanExchange (good.take 8) ++ [⟨[], a⟩]) } : State).Inv :=
  ⟨.inl (by decide), .inl (by decide), .inr ⟨0x03, 0x04, rfl, rfl, by decide⟩, inv_tp inv_idle _⟩

theorem witness_ExecuteEnds :
    idle.Inv ∧ idle.seq = .idle ∧ legalFn 0x03 = true ∧ legalFn 0x06 = true ∧ legalFn 0x10 = true ∧
    legalFn 0x04 = false ∧ (List.replicate 259 (0 : Byte)).length ≤ 259 ∧ 259 < (List.replicate 260 (0 : Byte)).length := by
  refine ⟨inv_idle, ?_⟩
  decide +kernel

theorem witness_LoopFormIsPhaseForm :
    (reading .flush 6 9 good (tpOf [1] [])).Inv ∧ (reading .flush 6 9 good (tpOf [1] [])).seq = .flush ∧
    (reading .flush 6 9 good (tpOf [1] [])).port = [] ∧
    (reading .flush 6 9 good (tpOf [1] [])).maxAttempts - (reading .flush 6 9 good (tpOf [1] [])).fails ≤ 2 :=
  ⟨inv_flush, rfl, rfl, by decide⟩

theorem witness_HostCommandsAreExecute :
    ({ idle with port := [.op (encode (.readWords 8 2))] } : State).Inv ∧
    ({ idle with port := [.op (encode (.writeWord 9 ⟨5007, 9⟩))] } : State).Inv ∧
    ({ idle with port := [.op (encode (.writeWords 80 []))] } : State).Inv ∧
    goodAddress 8 ∧ goodAddress 9 ∧ goodAddress 80 ∧ goodValue ⟨5007, 9⟩ :=
  ⟨inv_port inv_idle _, inv_port inv_idle _, inv_port inv_idle _, by unfold goodAddress; decide,
    by unfold goodAddress; decide, by unfold goodAddress; decide, by unfold goodValue; decide⟩

theorem witness_AnyWordsCanBeDelivered :
    idle.Inv ∧ idle.seq = .idle ∧ goodAddress 65535 ∧ (List.replicate 127 (0xFFFF : Word)).length ≤ 127 :=
  ⟨inv_idle, rfl, by unfold goodAddress; decide, by simp⟩

end Sys2Proof.Tests
end

section
/-! The register values right after reset, one lemma per register to which R26 gives a value. -/

namespace Sys2Proof.Machine

@[simp] theorem reset_seq : State.reset.seq = .idle := rfl
@[simp] theorem reset_txlen : State.reset.txlen = 0 := rfl
@[simp] theorem reset_rxlen : State.reset.rxlen = 0 := rfl
@[simp] theorem reset_resultLen : State.reset.resultLen = 0 := rfl
@[simp] theorem reset_fails : State.reset.fails = 0 := rfl
@[simp] theorem reset_done : State.reset.done = false := rfl
@[simp] theorem reset_usage : State.reset.usage = false := rfl
@[simp] theorem reset_fatal : State.reset.fatal = false := rfl
@[simp] theorem reset_firstWriteDone : State.reset.firstWriteDone = false := rfl
@[simp] theorem reset_lastFault : State.reset.lastFault = .none := rfl
@[simp] theorem reset_fatalCause : State.reset.fatalCause = .none := rfl

@[simp] theorem Cause.code_none : Cause.none.code = 0 := rfl
@[simp] theorem FatalCause.code_none : FatalCause.none.code = 0 := rfl

/-- Settles O38: the two causes are `NONE` after reset, whose code is 0; the other registers hold R26's value itself. -/
theorem resetValues : Obligations.ResetValues := by
  have hlast : State.reset.lastFault.code = 0 := by rw [reset_lastFault, Cause.code_none]
  have hcause : State.reset.fatalCause.code = 0 := by rw [reset_fatalCause, FatalCause.code_none]
  exact ⟨reset_seq, reset_txlen, reset_rxlen, reset_resultLen, reset_fails, reset_done, reset_usage, reset_fatal,
    reset_firstWriteDone, hlast, hcause⟩

end Sys2Proof.Machine
end

section
/-! The bytes of a 16-bit field as the statements name them, and a write value as its field. -/

namespace Sys2Proof.Machine

open Sys2Proof.Claims

theorem low_eq_loByte (w : Word) : low w = loByte w := by
  apply BitVec.eq_of_toNat_eq
  rw [toNat_loByte, low, BitVec.toNat_setWidth]

theorem high_eq_hiByte (w : Word) : high w = hiByte w := by
  have := w.isLt
  apply BitVec.eq_of_toNat_eq
  rw [toNat_hiByte, high, BitVec.toNat_setWidth, BitVec.toNat_ushiftRight, Nat.shiftRight_eq_div_pow]
  omega

theorem be16_eq (w : Word) : be16 w = [high w, low w] := by rw [be16, high_eq_hiByte, low_eq_loByte]

theorem le16_eq (w : Word) : le16 w = [low w, high w] := by rw [le16, high_eq_hiByte, low_eq_loByte]

/-- A number that fits one byte has a zero high byte. -/
theorem be16_ofNat_of_lt {n : Nat} (hn : n < 256) : be16 (BitVec.ofNat 16 n) = [0, BitVec.ofNat 8 n] := by
  have hhi : hiByte (BitVec.ofNat 16 n) = 0 := by
    apply BitVec.eq_of_toNat_eq
    rw [toNat_hiByte, BitVec.toNat_ofNat]
    exact Nat.div_eq_of_lt (by omega)
  have hlo : loByte (BitVec.ofNat 16 n) = BitVec.ofNat 8 n := by
    apply BitVec.eq_of_toNat_eq
    rw [toNat_loByte, BitVec.toNat_ofNat, BitVec.toNat_ofNat]; omega
  rw [be16, hhi, hlo]

/-- A value that fits is carried by its field unchanged (R163, R115). -/
theorem toNat_valueWord {x : Number} (hx : goodValue x) :
    ((valueWord x).toNat : Int) = x.num.tdiv (x.denPred + 1) := by
  obtain ⟨hlo, hhi⟩ := hx
  rw [valueWord, toWord, BitVec.toNat_ofInt]
  omega

end Sys2Proof.Machine
end

section
/-! Acceptance of a good request (R151, R152): the usage checks pass, and what the request leaves in the registers and in
`TXBUF`. -/

namespace Sys2Proof.Machine

open Sys2Proof.Claims

/-- The converse of `usageCheck_eq_none`: good operands pass every check (R164). -/
theorem usageCheck_of_good {fn : Byte} {a : Int} {vals : List Number} (hfn : legalFn fn = true) (ha : goodAddress a)
    (hn : fn = fnWMulti → vals.length ≤ 127) (hv : ∀ v ∈ vals, goodValue v) : usageCheck fn a vals = none := by
  obtain ⟨hlo, hhi⟩ := ha
  have hcount : ¬ (fn = fnWMulti ∧ Config.maxWmCount < vals.length) := fun ⟨hf, hl⟩ => by
    have := hn hf
    simp only [Config.maxWmCount] at hl
    omega
  have hvals : ¬ vals.any valueOutOfRange = true := by
    rw [List.any_eq_true]
    rintro ⟨v, hmem, hout⟩
    obtain ⟨h0, h1⟩ : 0 ≤ toWord v ∧ toWord v ≤ 65535 := hv v hmem
    simp only [valueOutOfRange, Bool.or_eq_true, decide_eq_true_eq] at hout
    omega
  rw [usageCheck, if_neg (by simp [hfn]), if_neg (by omega), if_neg (by omega), if_neg hcount, if_neg hvals]

/-- In `IDLE` a request with good operands is started. -/
theorem acceptCommand_of_good {s : State} (hi : s.seq = .idle) {fn : Byte} {a : Int} {vals : List Number}
    (hfn : legalFn fn = true) (ha : goodAddress a) (hn : fn = fnWMulti → vals.length ≤ 127)
    (hv : ∀ v ∈ vals, goodValue v) (p : List Byte) (k : Word) :
    acceptCommand fn a vals p k s = startRequest fn p (modeOf fn) k s := by
  rw [acceptCommand, if_pos hi, usageCheck_of_good hfn ha hn hv]

/-- The first write-class request since reset goes to `DELAY`, every later one to `FLUSH` (R153). -/
theorem startRequest_seq_write {fn : Byte} (hw : writeClass fn = true) (p : List Byte) (m : Mode) (k : Word) (s : State) :
    (startRequest fn p m k s).seq = if s.firstWriteDone then .flush else .delay := by
  rw [startRequest_seq, hw]
  cases s.firstWriteDone <;> rfl

/-- Inside R110's domain `TXLEN` becomes the payload's length and four. -/
theorem startRequest_txlen_of_le (fn : Byte) {p : List Byte} (hp : p.length ≤ 259) (m : Mode) (k : Word) (s : State) :
    (startRequest fn p m k s).txlen = p.length + 4 := by
  rw [startRequest_txlen, requestFrame_eq _ _ hp, buildFrame_length _ _ hp]

/-- A started request writes the flags, the latches, `TXBUF`, `TXLEN`, `CRC` and `SEQ`, and nothing else. -/
theorem startRequest_frame (fn : Byte) (p : List Byte) (m : Mode) (k : Word) (s : State) :
    startRequest fn p m k s = { s with
      done := false, usage := false, resultLen := 0, fails := 0, lastFault := .none
      reqFn := fn, reqMode := m, reqCount := if m = .selfdesc then k else s.reqCount
      txlen := (startRequest fn p m k s).txlen, seq := (startRequest fn p m k s).seq
      txbuf := (startRequest fn p m k s).txbuf, crc := (startRequest fn p m k s).crc } := rfl

/-- A started read request (R151). -/
theorem startRequest_read_frame {p : List Byte} (hp : p.length ≤ 259) (k : Word) (s : State) :
    startRequest fnRead p .selfdesc k s = { s with
      done := false, usage := false, resultLen := 0, fails := 0, lastFault := .none
      reqFn := fnRead, reqMode := .selfdesc, reqCount := k, txlen := p.length + 4, seq := .flush
      txbuf := (startRequest fnRead p .selfdesc k s).txbuf, crc := (startRequest fnRead p .selfdesc k s).crc } := by
  rw [← startRequest_txlen_of_le fnRead hp .selfdesc k s]
  exact startRequest_frame fnRead p .selfdesc k s

/-- A started write-class request, `REQ_COUNT` kept (R151, R153). -/
theorem startRequest_write_frame {fn : Byte} (hw : writeClass fn = true) {p : List Byte} (hp : p.length ≤ 259)
    (k : Word) (s : State) :
    startRequest fn p .fixed8 k s = { s with
      done := false, usage := false, resultLen := 0, fails := 0, lastFault := .none
      reqFn := fn, reqMode := .fixed8, txlen := p.length + 4
      seq := if s.firstWriteDone then .flush else .delay
      txbuf := (startRequest fn p .fixed8 k s).txbuf, crc := (startRequest fn p .fixed8 k s).crc } := by
  rw [← startRequest_txlen_of_le fn hp .fixed8 k s, ← startRequest_seq_write hw p .fixed8 k s]
  exact startRequest_frame fn p .fixed8 k s

/-- The frame in `TXBUF`: `DEV_ADDR`, `fn`, the payload, and the CRC of these, low byte first (R110, R152). -/
theorem txFrame_start_eq {s : State} (h : s.Inv) (fn : Byte) {p : List Byte} (hp : p.length ≤ 259) (m : Mode) (k : Word) :
    (startRequest fn p m k s).txFrame = s.devAddr :: fn :: p ++
      [low (crc16 ((startRequest fn p m k s).txFrame.take (p.length + 2))),
        high (crc16 ((startRequest fn p m k s).txFrame.take (p.length + 2)))] := by
  have hframe : (startRequest fn p m k s).txFrame = appendCrc (frameBody s.devAddr fn p) := by
    rw [txFrame_start fn p m k h.txbuf_wf, requestFrame_eq _ _ hp, buildFrame_eq _ _ hp]
  have hbody : (startRequest fn p m k s).txFrame.take (p.length + 2) = frameBody s.devAddr fn p := by
    rw [hframe]
    exact List.take_left' rfl
  rw [hbody, hframe, appendCrc, computeCrc, le16_eq, frameBody]

/-- `TXBUF` beyond the frame is unchanged. -/
theorem read_txbuf_start (fn : Byte) {p : List Byte} (hp : p.length ≤ 259) (m : Mode) (k : Word) (s : State) {n : Nat}
    (hn : p.length + 4 ≤ n) : Memory.read (startRequest fn p m k s).txbuf n = Memory.read s.txbuf n := by
  rw [startRequest_txbuf]
  apply read_writeList_ge
  rw [requestFrame_eq _ _ hp, buildFrame_length _ _ hp]
  omega

end Sys2Proof.Machine
end

section
/-! The three commands accepted in `IDLE` (R62 to R64, R160 to R162). -/

namespace Sys2Proof.Machine

open Sys2Proof.Claims

theorem exec_readWords_of_good {s : State} (hi : s.seq = .idle) {a : Int} (ha : goodAddress a) (k : Word) :
    exec (.readWords a k) s = .next (startRequest fnRead (encRead (addressWord a) k) .selfdesc k s) :=
  congrArg Host.Outcome.next (acceptCommand_of_good hi (by decide) ha (fun hf => absurd hf (by decide)) (by simp) _ k)

theorem exec_writeWord_of_good {s : State} (hi : s.seq = .idle) {a : Int} (ha : goodAddress a) {x : Number}
    (hx : goodValue x) :
    exec (.writeWord a x) s =
      .next (startRequest fnWSingle (encWSingle (addressWord a) (valueWord x)) .fixed8 0 s) :=
  congrArg Host.Outcome.next
    (acceptCommand_of_good hi (by decide) ha (fun hf => absurd hf (by decide)) (by simpa using hx) _ 0)

theorem exec_writeWords_of_good {s : State} (hi : s.seq = .idle) {a : Int} (ha : goodAddress a) {xs : List Number}
    (hn : xs.length ≤ 127) (hxs : ∀ x ∈ xs, goodValue x) :
    exec (.writeWords a xs) s =
      .next (startRequest fnWMulti (encWMulti (addressWord a) (xs.map valueWord)) .fixed8 0 s) :=
  congrArg Host.Outcome.next (acceptCommand_of_good hi (by decide) ha (fun _ => hn) hxs _ 0)

theorem encRead_eq (a k : Word) : encRead a k = [high a, low a, high k, low k] := by
  simp only [encRead, be16_eq, List.cons_append, List.nil_append]

theorem encWSingle_eq (a v : Word) : encWSingle a v = [high a, low a, high v, low v] := encRead_eq a v

/-- The payload of RQ-WM inside R113's domain, byte by byte (R64). -/
theorem encWMulti_bytes (a : Word) {vs : List Word} (hn : vs.length ≤ 127) :
    encWMulti a vs = [high a, low a, 0, BitVec.ofNat 8 vs.length, BitVec.ofNat 8 (2 * vs.length)] ++
      vs.flatMap (fun v => [high v, low v]) := by
  have hfields : be16 = fun v => [high v, low v] := funext be16_eq
  rw [encWMulti_eq a hn, wmultiPayload, be16_ofNat_of_lt (by omega), be16_eq a, hfields]
  rfl

theorem length_encWMulti (a : Word) {vs : List Word} (hn : vs.length ≤ 127) :
    (encWMulti a vs).length = 5 + 2 * vs.length := by
  simp only [encWMulti_eq a hn, wmultiPayload, List.length_append, length_be16, length_flatMap_be16, List.length_singleton]

/-- Settles O23: the started request with the payload of RQ-R. -/
theorem readWordsAccepted : Obligations.ReadWordsAccepted := by
  unfold Obligations.ReadWordsAccepted
  intro s a k h hi ha
  have hp : (encRead (addressWord a) k).length ≤ 259 := by simp [encRead]
  refine ⟨_, exec_readWords_of_good hi ha k, startRequest_read_frame hp k s, ?_,
    fun n hn => read_txbuf_start _ hp _ _ _ hn⟩
  have hframe := txFrame_start_eq h fnRead hp .selfdesc k
  rwa [encRead_eq] at hframe ⊢

/-- Settles O24: the started request with the payload of RQ-WS. -/
theorem writeWordAccepted : Obligations.WriteWordAccepted := by
  unfold Obligations.WriteWordAccepted
  intro s a x h hi ha hx
  have hp : (encWSingle (addressWord a) (valueWord x)).length ≤ 259 := by simp [encWSingle]
  refine ⟨_, valueWord x, exec_writeWord_of_good hi ha hx, toNat_valueWord hx,
    startRequest_write_frame rfl hp 0 s, ?_, fun n hn => read_txbuf_start _ hp _ _ _ hn⟩
  have hframe := txFrame_start_eq h fnWSingle hp .fixed8 0
  rwa [encWSingle_eq] at hframe ⊢

/-- Settles O25: the started request with the payload of RQ-WM. -/
theorem writeWordsAccepted : Obligations.WriteWordsAccepted := by
  unfold Obligations.WriteWordsAccepted
  intro s a xs h hi ha hn hxs
  have hwords : (xs.map valueWord).length ≤ 127 := by rwa [List.length_map]
  have hlen : (encWMulti (addressWord a) (xs.map valueWord)).length = 5 + 2 * xs.length := by
    rw [length_encWMulti _ hwords, List.length_map]
  have hp : (encWMulti (addressWord a) (xs.map valueWord)).length ≤ 259 := by omega
  have htxlen : (encWMulti (addressWord a) (xs.map valueWord)).length + 4 = 9 + 2 * xs.length := by omega
  have hbody : (encWMulti (addressWord a) (xs.map valueWord)).length + 2 = 7 + 2 * xs.length := by omega
  refine ⟨_, xs.map valueWord, exec_writeWords_of_good hi ha hn hxs, ?_, ?_, ?_,
    fun n hn => read_txbuf_start _ hp _ _ _ (htxlen ▸ hn)⟩
  · rw [List.map_map]
    exact List.map_congr_left fun x hx => toNat_valueWord (hxs x hx)
  · rw [← htxlen]
    exact startRequest_write_frame rfl hp 0 s
  · have hframe := txFrame_start_eq h fnWMulti hp .fixed8 0
    have hpayload := encWMulti_bytes (addressWord a) hwords
    rw [List.length_map] at hpayload
    have hcovered := congrArg (s.devAddr :: fnWMulti :: ·) hpayload
    rw [hbody] at hframe
    exact hframe.trans (congrArg (· ++ _) hcovered)

end Sys2Proof.Machine
end

section
/-! The two bytes of a word (R40, R41) under xor, under a shift by a byte, and of a byte set into a word. -/

namespace Sys2Proof.Machine

open Sys2Proof.Claims

theorem loByte_xor (a b : Word) : loByte (a ^^^ b) = loByte a ^^^ loByte b := BitVec.extractLsb'_xor

theorem hiByte_xor (a b : Word) : hiByte (a ^^^ b) = hiByte a ^^^ hiByte b := BitVec.extractLsb'_xor

@[simp] theorem loByte_setWidth (b : Byte) : loByte (b.setWidth 16) = b := by
  rw [← low_eq_loByte, low, BitVec.setWidth_setWidth_of_le b (by decide), BitVec.setWidth_eq]

@[simp] theorem hiByte_setWidth (b : Byte) : hiByte (b.setWidth 16) = 0 := by
  apply BitVec.eq_of_toNat_eq
  rw [toNat_hiByte, BitVec.toNat_setWidth_of_le (by decide)]
  exact Nat.div_eq_of_lt b.isLt

theorem eq_setWidth_of_hiByte_eq_zero {w : Word} (h : hiByte w = 0) : w = (loByte w).setWidth 16 := by
  have hw : hiByte w = hiByte ((loByte w).setWidth 16) := by rw [h, hiByte_setWidth]
  rw [← u16be_bytes w, hw]
  simpa using u16be_bytes ((loByte w).setWidth 16)

theorem setWidth16_injective : Function.Injective fun b : Byte => b.setWidth 16 := fun a b h => by
  simpa using congrArg loByte h

theorem loByte_ushiftRight_8 (c : Word) : loByte (c >>> 8) = hiByte c := by
  rw [← low_eq_loByte, ← high_eq_hiByte, low, high]

theorem hiByte_ushiftRight_8 (c : Word) : hiByte (c >>> 8) = 0 := by
  apply BitVec.eq_of_toNat_eq
  rw [toNat_hiByte, BitVec.toNat_ushiftRight]
  exact Nat.div_eq_of_lt (by have := c.isLt; omega)

theorem ushiftRight_8_eq_setWidth (c : Word) : c >>> 8 = (hiByte c).setWidth 16 := by
  rw [← loByte_ushiftRight_8]
  exact eq_setWidth_of_hiByte_eq_zero (hiByte_ushiftRight_8 c)

end Sys2Proof.Machine
end

section
/-! The feedback register of R90: one shift is injective and linear over xor, and so is every number of shifts. -/

namespace Sys2Proof.Machine

theorem crcShift_of_bit0 {c : Word} (h : c.getLsbD 0 = true) : crcShift c = (c >>> 1) ^^^ Config.crcPoly := if_pos h

theorem crcShift_of_not_bit0 {c : Word} (h : c.getLsbD 0 = false) : crcShift c = c >>> 1 :=
  if_neg (h ▸ Bool.false_ne_true)

/-- The shift loses nothing: the feedback constant has bit 15 set, so the bit shifted out comes back at the top. -/
theorem getLsbD_crcShift_top (c : Word) : (crcShift c).getLsbD 15 = c.getLsbD 0 := by
  cases h : c.getLsbD 0 with
  | true => simp [crcShift_of_bit0 h, Config.crcPoly]
  | false => simp [crcShift_of_not_bit0 h]

theorem crcShift_injective : Function.Injective crcShift := by
  intro a b h
  have hbit : a.getLsbD 0 = b.getLsbD 0 := by rw [← getLsbD_crcShift_top, h, getLsbD_crcShift_top]
  have hrest : a >>> 1 = b >>> 1 := by
    cases hb : b.getLsbD 0 with
    | true =>
      rw [crcShift_of_bit0 (hbit.trans hb), crcShift_of_bit0 hb] at h
      exact (BitVec.xor_left_inj _).1 h
    | false => rwa [crcShift_of_not_bit0 (hbit.trans hb), crcShift_of_not_bit0 hb] at h
  apply BitVec.eq_of_getLsbD_eq
  intro i _
  cases i with
  | zero => exact hbit
  | succ i => simpa [BitVec.getLsbD_ushiftRight, Nat.add_comm] using congrArg (·.getLsbD i) hrest

theorem crcShift_xor (a b : Word) : crcShift (a ^^^ b) = crcShift a ^^^ crcShift b := by
  have hbit : (a ^^^ b).getLsbD 0 = (a.getLsbD 0 ^^ b.getLsbD 0) := BitVec.getLsbD_xor
  cases ha : a.getLsbD 0 <;> cases hb : b.getLsbD 0 <;> rw [ha, hb] at hbit
  · rw [crcShift_of_not_bit0 hbit, crcShift_of_not_bit0 ha, crcShift_of_not_bit0 hb, BitVec.ushiftRight_xor_distrib]
  · rw [crcShift_of_bit0 hbit, crcShift_of_not_bit0 ha, crcShift_of_bit0 hb, BitVec.ushiftRight_xor_distrib,
      BitVec.xor_assoc]
  · rw [crcShift_of_bit0 hbit, crcShift_of_bit0 ha, crcShift_of_not_bit0 hb, BitVec.ushiftRight_xor_distrib]
    ac_rfl
  · rw [crcShift_of_not_bit0 hbit, crcShift_of_bit0 ha, crcShift_of_bit0 hb, BitVec.ushiftRight_xor_distrib]
    calc a >>> 1 ^^^ b >>> 1 = a >>> 1 ^^^ b >>> 1 ^^^ (Config.crcPoly ^^^ Config.crcPoly) := by
          rw [BitVec.xor_self, BitVec.xor_zero]
      _ = a >>> 1 ^^^ Config.crcPoly ^^^ (b >>> 1 ^^^ Config.crcPoly) := by ac_rfl

theorem crcShifts_eq_iterate (n : Nat) (c : Word) : crcShifts n c = crcShift^[n] c := by
  induction n generalizing c with
  | zero => rfl
  | succ n ih => exact ih (crcShift c)

theorem crcShifts_injective (n : Nat) : Function.Injective (crcShifts n) := by
  rw [funext (crcShifts_eq_iterate n)]
  exact crcShift_injective.iterate n

theorem crcShifts_xor (n : Nat) (a b : Word) : crcShifts n (a ^^^ b) = crcShifts n a ^^^ crcShifts n b := by
  induction n generalizing a b with
  | zero => rfl
  | succ n ih => rw [crcShifts, crcShift_xor, ih, crcShifts, crcShifts]

/-- While only zero bits leave the register there is no feedback. -/
theorem crcShifts_of_low_zero {n : Nat} {c : Word} (h : ∀ i < n, c.getLsbD i = false) : crcShifts n c = c >>> n := by
  induction n generalizing c with
  | zero => simp [crcShifts]
  | succ n ih =>
    have hrest : ∀ i < n, (c >>> 1).getLsbD i = false := fun i hi => by
      rw [BitVec.getLsbD_ushiftRight]
      exact h (1 + i) (by omega)
    rw [crcShifts, crcShift_of_not_bit0 (h 0 n.succ_pos), ih hrest, Nat.add_comm n 1, BitVec.shiftRight_add]

end Sys2Proof.Machine
end

section
/-! One update of the accumulator (R93): it separates accumulators and bytes, and it is the table form of R94. -/

namespace Sys2Proof.Machine

theorem crcStep_left_injective (b : Byte) : Function.Injective (crcStep · b) := fun _ _ h =>
  (BitVec.xor_left_inj _).1 (crcShifts_injective 8 h)

theorem crcStep_right_injective (c : Word) : Function.Injective (crcStep c) := fun _ _ h =>
  setWidth16_injective ((BitVec.xor_right_inj _).1 (crcShifts_injective 8 h))

theorem crcStep_xor (a b : Word) (x y : Byte) : crcStep (a ^^^ b) (x ^^^ y) = crcStep a x ^^^ crcStep b y := by
  rw [crcStep, crcStep, crcStep, ← crcShifts_xor, BitVec.setWidth_xor]
  ac_rfl

/-- The high byte of the accumulator meets no feedback: it is shifted down, and xored with the update that the low byte
alone gives. -/
theorem crcStep_eq_xor (c : Word) (b : Byte) : crcStep c b = (c >>> 8) ^^^ crcStep 0 (loByte c ^^^ b) := by
  have hsplit : c ^^^ b.setWidth 16 = (c >>> 8) <<< 8 ^^^ (0 ^^^ (loByte c ^^^ b).setWidth 16) := by
    apply BitVec.eq_of_getLsbD_eq
    intro i hi
    by_cases h8 : i < 8
    · simp [loByte, h8, hi]
    · have h8' : 8 + (i - 8) = i := by omega
      simp [loByte, h8, hi, h8']
  have hhigh : crcShifts 8 ((c >>> 8) <<< 8) = (c >>> 8) <<< 8 >>> 8 :=
    crcShifts_of_low_zero fun i hi => by simp [hi]
  have hback : (c >>> 8) <<< 8 >>> 8 = c >>> 8 := by
    apply BitVec.eq_of_getLsbD_eq
    intro i hi
    simpa [hi] using fun hbit => BitVec.lt_of_getLsbD hbit
  rw [crcStep, hsplit, crcShifts_xor, hhigh, hback, crcStep]

theorem t16_eq_crcStep : ∀ i : Byte, t16 i = crcStep 0 i := by decide +kernel

theorem crcStep_eq_table (c : Word) (b : Byte) : crcStep c b = crcStepTable c b := by
  rw [crcStepTable, t16_eq_crcStep]
  exact crcStep_eq_xor c b

theorem loByte_crcStep (c : Word) (b : Byte) : loByte (crcStep c b) = hiByte c ^^^ tabL (loByte c ^^^ b) := by
  rw [crcStep_eq_table, crcStepTable, loByte_xor, loByte_ushiftRight_8, tabL]

theorem hiByte_crcStep (c : Word) (b : Byte) : hiByte (crcStep c b) = tabH (loByte c ^^^ b) := by
  rw [crcStep_eq_table, crcStepTable, hiByte_xor, hiByte_ushiftRight_8, tabH]
  exact BitVec.zero_xor

theorem crcStep_loByte (c : Word) : crcStep c (loByte c) = c >>> 8 := by
  have hzero : crcStep 0 0#8 = 0 := by decide
  rw [crcStep_eq_xor, BitVec.xor_self, hzero]
  exact BitVec.xor_zero

/-- The update leaves a byte below a zero high byte just when it is fed the low byte of the accumulator; the byte left is
then the high one. -/
theorem crcStep_eq_setWidth_iff (c : Word) (b d : Byte) :
    crcStep c b = d.setWidth 16 ↔ b = loByte c ∧ d = hiByte c := by
  have hpair : crcStep (u16le b d) b = d.setWidth 16 := by
    simpa [u16le, ushiftRight_8_eq_setWidth] using crcStep_loByte (u16le b d)
  constructor
  · intro h
    have hc : c = u16le b d := crcStep_left_injective b (h.trans hpair.symm)
    simp [hc, u16le]
  · rintro ⟨rfl, rfl⟩
    simpa using hpair

theorem crcStep_eq_zero_iff (c : Word) (b : Byte) : crcStep c b = 0 ↔ c = b.setWidth 16 := by
  have hzero : crcStep (b.setWidth 16) b = 0 :=
    (crcStep_eq_setWidth_iff _ b 0).2 ⟨(loByte_setWidth b).symm, (hiByte_setWidth b).symm⟩
  exact ⟨fun h => crcStep_left_injective b (h.trans hzero.symm), fun h => h ▸ hzero⟩

/-- Feeding an accumulator its own two bytes, low byte first, clears it, and nothing else of that length does (R100). -/
theorem crcFrom_pair_eq_zero_iff (c : Word) (x y : Byte) : crcFrom c [x, y] = 0 ↔ x = loByte c ∧ y = hiByte c :=
  (crcStep_eq_zero_iff (crcStep c x) y).trans (crcStep_eq_setWidth_iff c x y)

end Sys2Proof.Machine
end

section
/-! The tables of R96. -/

namespace Sys2Proof.Machine

theorem tabL_mem : ∀ i : Byte, tabL i ∈ ([0x00, 0x01, 0x40, 0x41, 0x80, 0x81, 0xC0, 0xC1] : List Byte) := by
  decide +kernel

theorem tabH_xor (i j : Byte) : tabH (i ^^^ j) = tabH i ^^^ tabH j := by
  rw [tabH, tabH, tabH, t16_eq_crcStep, t16_eq_crcStep, t16_eq_crcStep, ← hiByte_xor, ← crcStep_xor]
  rfl

theorem tabH_eq_zero_iff (i : Byte) : tabH i = 0 ↔ i = 0 := by
  constructor
  · intro h
    rw [tabH, t16_eq_crcStep] at h
    exact ((crcStep_eq_setWidth_iff 0 i _).1 (eq_setWidth_of_hiByte_eq_zero h)).1
  · rintro rfl
    rfl

theorem tabH_injective : Function.Injective tabH := fun i j h => by
  have hdiff : tabH (i ^^^ j) = 0 := by rw [tabH_xor, h]; exact BitVec.xor_self
  exact BitVec.xor_eq_zero_iff.1 ((tabH_eq_zero_iff _).1 hdiff)

/-- Settles O8: the update is linear and its high byte meets no feedback, so the table on the low byte is all of it. -/
theorem crcTableForm : Obligations.CrcTableForm := by
  refine ⟨by decide +kernel, fun i => ⟨t16_eq_crcStep i, (low_eq_loByte _).symm, (high_eq_hiByte _).symm⟩, tabL_mem,
    tabH_injective, tabH_eq_zero_iff, fun c b => ?_⟩
  simp only [low_eq_loByte, high_eq_hiByte]
  exact ⟨crcStep_eq_table c b, loByte_crcStep c b, hiByte_crcStep c b⟩

end Sys2Proof.Machine
end

section
/-! The CRC of a sequence and of a frame with its trailer (R95, R98, R100). -/

namespace Sys2Proof.Machine

open Sys2Proof.Claims

theorem crc16_append (s t : List Byte) : crc16 (s ++ t) = crcFrom (crc16 s) t := List.foldl_append

theorem crc16_append_pair_eq_zero_iff (d : List Byte) (x y : Byte) :
    crc16 (d ++ [x, y]) = 0 ↔ x = loByte (crc16 d) ∧ y = hiByte (crc16 d) := by
  rw [crc16_append, crcFrom_pair_eq_zero_iff]

@[simp] theorem crc16_appendCrc (d : List Byte) : crc16 (appendCrc d) = 0 :=
  (crc16_append_pair_eq_zero_iff d _ _).2 ⟨rfl, rfl⟩

/-- Settles O9: a pair of bytes clears the accumulator just when it is the accumulator's own. -/
theorem zeroResidue : Obligations.ZeroResidue := by
  simp only [Obligations.ZeroResidue, low_eq_loByte, high_eq_hiByte]
  exact ⟨crc16_appendCrc, fun d x y => (crc16_append_pair_eq_zero_iff d x y).1⟩

/-- The fold is injective in the start value, so a difference once in the accumulator stays. -/
theorem crcFrom_injective (s : List Byte) : Function.Injective (crcFrom · s) := by
  induction s with
  | nil => exact fun _ _ h => h
  | cons b s ih => exact fun _ _ h => crcStep_left_injective b (ih h)

/-- Two sequences that differ in one byte have different CRCs. -/
theorem crcFrom_set_injective (c : Word) {s : List Byte} {n : Nat} (hn : n < s.length) :
    Function.Injective fun b => crcFrom c (s.set n b) := by
  induction s generalizing c n with
  | nil => exact absurd hn (Nat.not_lt_zero n)
  | cons a s ih =>
    cases n with
    | zero => exact fun _ _ h => crcStep_right_injective c (crcFrom_injective s h)
    | succ n => exact ih (crcStep c a) (Nat.lt_of_succ_lt_succ hn)

theorem isValid_iff (f : List Byte) : isValid f = true ↔ crc16 f = 0 := decide_eq_true_iff

theorem bitMask_ne_zero : ∀ j < 8, (1 : Byte) <<< j ≠ 0 := by decide

theorem flipBit_eq_set {s : List Byte} {k : Nat} (hk : k / 8 < s.length) :
    flipBit s k = s.set (k / 8) (s[k / 8] ^^^ (1 : Byte) <<< (k % 8)) := by
  rw [flipBit, byteAt, List.getD_eq_getElem _ _ hk]

theorem crc16_flipBit_ne {s : List Byte} {k : Nat} (hk : k < 8 * s.length) : crc16 (flipBit s k) ≠ crc16 s := by
  have hn : k / 8 < s.length := Nat.div_lt_of_lt_mul hk
  intro h
  rw [flipBit_eq_set hn] at h
  have hbyte : s[k / 8] ^^^ (1 : Byte) <<< (k % 8) = s[k / 8] :=
    crcFrom_set_injective Config.crcSeed hn (h.trans (congrArg crc16 (List.set_getElem_self hn).symm))
  exact bitMask_ne_zero (k % 8) (Nat.mod_lt k (by decide)) (by simpa using hbyte)

/-- Settles O10: the frame has CRC 0, and no flip of one bit keeps the CRC. -/
theorem singleBitErrorDetected : Obligations.SingleBitErrorDetected := by
  intro f k hk
  rw [Bool.eq_false_iff, ne_eq, isValid_iff, ← crc16_appendCrc f]
  exact crc16_flipBit_ne hk

end Sys2Proof.Machine
end

section
/-! The contract functions and the port operations of the CRC unit (R91 to R99). -/

namespace Sys2Proof.Machine

open Sys2Proof.Claims

theorem appendCrc_appendCrc (f : List Byte) : appendCrc (appendCrc f) = appendCrc f ++ [0x00, 0x00] := by
  rw [appendCrc, computeCrc, crc16_appendCrc]
  rfl

/-- Settles O11: a second trailer is that of a CRC of 0 (R98, R100). -/
theorem crcFunctionsReturn : Obligations.CrcFunctionsReturn := by
  intro s bs cs
  simp only [← le16_eq]
  exact ⟨rfl, List.foldl_append, rfl, rfl, appendCrc_appendCrc bs⟩

theorem isValid_append_pair_iff (d : List Byte) (x y : Byte) :
    isValid (d ++ [x, y]) = true ↔ [x, y] = computeCrc d := by
  rw [isValid_iff, crc16_append_pair_eq_zero_iff, computeCrc, le16]
  simp

theorem isValid_singleton (b : Byte) : isValid [b] = false := by
  rw [Bool.eq_false_iff, ne_eq, isValid_iff]
  intro h
  have hseed : Config.crcSeed = b.setWidth 16 := (crcStep_eq_zero_iff _ b).1 h
  have hhigh : hiByte Config.crcSeed = 0 := by rw [hseed, hiByte_setWidth]
  exact absurd hhigh (by decide)

/-- Settles O12: a byte alone cannot clear the seed, whose high byte is not 0, and a pair does only as the
trailer of what precedes (R99). -/
theorem isValidReturns : Obligations.IsValidReturns := by
  refine ⟨fun _ _ => rfl, by decide, isValid_singleton, fun x y => ?_, isValid_append_pair_iff⟩
  have hseed : computeCrc [] = [0xFF, 0xFF] := by decide
  simpa [hseed] using isValid_append_pair_iff [] x y

theorem exec_crcUpdate (b : Byte) (s : State) : exec (.crcUpdate b) s = .next (setCrc (crcStep s.crc b) s) := rfl

/-- Settles O6: the eight shifts of R93 are an iterate of the one shift. -/
theorem crcPortOperations : Obligations.CrcPortOperations := by
  intro s b
  refine ⟨rfl, rfl, rfl, rfl, rfl, ?_⟩
  rw [exec_crcUpdate, crcStep, crcShifts_eq_iterate]
  rfl

end Sys2Proof.Machine
end

section
/-! The frame encoder (R110). -/

namespace Sys2Proof.Machine

open Sys2Proof.Claims

theorem exec_buildFrame (fn : Byte) (p : List Byte) (s : State) :
    exec (.buildFrame fn p) s = .next (setRet (.bytes (buildFrame s.devAddr fn p)) s) := rfl

/-- Inside R110's domain the frame written out: the address, `fn`, the payload, and the CRC of these, low byte first. -/
theorem buildFrame_eq_append (dev fn : Byte) {p : List Byte} (hp : p.length ≤ 259) :
    buildFrame dev fn p = dev :: fn :: p ++ [low (crc16 (dev :: fn :: p)), high (crc16 (dev :: fn :: p))] := by
  rw [buildFrame_eq dev fn hp, appendCrc, computeCrc, le16_eq, frameBody]

/-- Every sequence that ends in its own CRC is valid (R98, R100). -/
theorem isValid_appendCrc (d : List Byte) : isValid (appendCrc d) = true :=
  (isValid_iff _).2 (crc16_appendCrc d)

theorem isValid_buildFrame (dev fn : Byte) {p : List Byte} (hp : p.length ≤ 259) :
    isValid (buildFrame dev fn p) = true := by
  rw [buildFrame_eq dev fn hp]
  exact isValid_appendCrc _

/-- Settles O13: inside R110's domain the frame is the body with its own CRC appended, so its residue is 0. -/
theorem buildFrameReturns : Obligations.BuildFrameReturns := fun s fn _ hp =>
  ⟨buildFrame s.devAddr fn _, exec_buildFrame fn _ s, buildFrame_eq_append s.devAddr fn hp,
    buildFrame_length s.devAddr fn hp, isValid_buildFrame s.devAddr fn hp⟩

end Sys2Proof.Machine
end

section
/-! The frame decoder (42_frame_decode.md): the response length, what a frame that passes `validate` satisfies, its result
words, and the exception classes. -/

namespace Sys2Proof.Machine

/-- The response length as R131 writes it. -/
theorem rxNeed_eq (h1 h2 : Byte) (m : Mode) :
    rxNeed h1 h2 m = if h1.getLsbD 7 then 5 else if m = .fixed8 then 8 else 5 + h2.toNat := by
  cases m <;> rfl

/-- Settles O16: the value is R131's, and `rxNeed_le` bounds it. -/
theorem rxNeedReturns : Obligations.RxNeedReturns := fun _ _ h1 h2 m =>
  ⟨rxNeed h1 h2 m, rfl, rxNeed_eq h1 h2 m, rxNeed_le h1 h2 m⟩

theorem excClass_of_not_mem : ∀ code : Byte,
    code ∉ ([1, 2, 3, 4, 5, 6, 7, 8, 0x0A, 0x0B] : List Byte) → excClass code = .unknown := by decide

/-- Settles O20: each named code has its class by computation, and no other byte has a name. -/
theorem excClassTable : Obligations.ExcClassTable := by
  intro s code
  refine ⟨excClass code, rfl, ?_, ?_, ?_, ?_, ?_, ?_, ?_, ?_, ?_, ?_, excClass_of_not_mem code⟩ <;>
    (rintro rfl; rfl)

/-- A frame passes just when the four checks of R133 do. -/
theorem validate_eq_ok_iff {dev : Byte} {rx : List Byte} {fn : Byte} {m : Mode} {k : Word} {ws : List Word} :
    validate dev rx fn m k = .ok ws ↔
      crc16 rx = 0 ∧ byteAt rx 0 = dev ∧ byteAt rx 1 = fn ∧
        (m = .selfdesc → (byteAt rx 2).toNat = 2 * k.toNat) ∧ resultWords rx m k = ws := by
  unfold validate
  split_ifs with hcrc haddr hfn hexc hcount
  · exact iff_of_false nofun fun ⟨h, _⟩ => hcrc h
  · exact iff_of_false nofun fun ⟨_, h, _⟩ => haddr h
  · exact iff_of_false nofun fun ⟨_, _, h, _⟩ => hfn h
  · exact iff_of_false nofun fun ⟨_, _, h, _⟩ => hfn h
  · exact iff_of_false nofun fun ⟨_, _, _, h, _⟩ => hcount.2 (h hcount.1)
  · simp only [not_not, not_and] at hcrc haddr hfn hcount
    rw [Verdict.ok.injEq]
    exact ⟨fun h => ⟨hcrc, haddr, hfn, hcount, h⟩, fun ⟨_, _, _, _, h⟩ => h⟩

/-- Under SELFDESC check (d) bounds the count by the one-byte length field (R133, R136). -/
theorem count_le_of_validate_ok {dev : Byte} {rx : List Byte} {fn : Byte} {k : Word} {ws : List Word}
    (h : validate dev rx fn .selfdesc k = .ok ws) : k.toNat ≤ 127 := by
  obtain ⟨-, -, -, hcount, -⟩ := validate_eq_ok_iff.1 h
  have := hcount rfl
  have := (byteAt rx 2).isLt
  omega

theorem getElem?_eq_byteAt {rx : List Byte} {i : Nat} (h : i < rx.length) : rx[i]? = some (byteAt rx i) := by
  rw [byteAt, List.getD_eq_getElem _ _ h, List.getElem?_eq_getElem h]

/-- A complete frame has the length its own head asks for (R131). -/
theorem completeFrame_length {rx : List Byte} {m : Mode} (h : completeFrame rx m = true) :
    rx.length = rxNeed (byteAt rx 1) (byteAt rx 2) m := by
  match rx with
  | _ :: _ :: _ :: _ => exact of_decide_eq_true h

/-- A complete frame that passes for an `fn` with bit 7 clear: 8 bytes of an acknowledgment, `5 + 2 * count` of a read
response (R131, R133). -/
theorem length_of_validate_ok {dev : Byte} {rx : List Byte} {fn : Byte} {m : Mode} {k : Word} {ws : List Word}
    (hc : completeFrame rx m = true) (hfn : fn.getLsbD 7 = false) (h : validate dev rx fn m k = .ok ws) :
    rx.length = if m = .fixed8 then 8 else 5 + 2 * k.toNat := by
  obtain ⟨-, -, rfl, hcount, -⟩ := validate_eq_ok_iff.1 h
  rw [completeFrame_length hc, rxNeed_eq, hfn]
  cases m with
  | fixed8 => rfl
  | selfdesc => simp [hcount rfl]

theorem length_resultWords_selfdesc (rx : List Byte) (k : Word) : (resultWords rx .selfdesc k).length = k.toNat := by
  simp [resultWords]

/-- Word `i` of a read response (R134). -/
theorem getElem?_resultWords_selfdesc (rx : List Byte) {k : Word} {i : Nat} (hi : i < k.toNat) :
    (resultWords rx .selfdesc k)[i]? = some (u16be (byteAt rx (3 + 2 * i)) (byteAt rx (4 + 2 * i))) := by
  simp [resultWords, hi]

/-- Settles O18: every byte that R134 and R135 name lies inside the frame. -/
theorem resultWords_of_validate_ok : Obligations.ResultWords := by
  intro dev rx fn m k ws hc hfn h
  have hlen := length_of_validate_ok hc hfn h
  obtain ⟨-, -, -, -, rfl⟩ := validate_eq_ok_iff.1 h
  constructor
  · rintro rfl
    have hlen : rx.length = 5 + 2 * k.toNat := hlen
    exact ⟨hlen, length_resultWords_selfdesc rx k, fun i hi =>
      ⟨_, _, getElem?_eq_byteAt (by omega), getElem?_eq_byteAt (by omega), getElem?_resultWords_selfdesc rx hi⟩⟩
  · rintro rfl
    have hlen : rx.length = 8 := hlen
    exact ⟨_, _, _, _, getElem?_eq_byteAt (by omega), getElem?_eq_byteAt (by omega), getElem?_eq_byteAt (by omega),
      getElem?_eq_byteAt (by omega), rfl⟩

end Sys2Proof.Machine
end

section
/-! A request that no response can satisfy (R136): every attempt fails, so `execute` ends in `FATAL`. -/

namespace Sys2Proof.Machine

open Sys2Proof.Claims

/-- The receive loops end an attempt without words. -/
theorem recvLoop_ne_ok (n : Nat) (s : State) (ws : List Word) : (recvLoop n s).1 ≠ some (.ok ws) := by
  induction n generalizing s with
  | zero => exact nofun
  | succ n ih =>
    unfold recvLoop
    simp only
    split
    · exact ih _
    · simp
    · simp

theorem Verdict.result_eq_ok {v : Verdict} {ws : List Word} (h : v.result = .ok ws) : v = .ok ws := by
  cases v <;> cases h
  rfl

/-- A successful attempt has validated a frame (R166). -/
theorem validate_of_attempt_ok {frame : List Byte} {fn : Byte} {m : Mode} {k : Word} {s : State} {ws : List Word}
    (h : (attempt frame fn m k s).1 = .ok ws) : ∃ dev rx, validate dev rx fn m k = .ok ws := by
  unfold attempt at h
  simp only at h
  split at h
  · cases h
  · cases h
  unfold attemptReceive at h
  split at h
  · next r s1 hr => exact absurd ((congrArg Prod.fst hr).trans (congrArg some h)) (recvLoop_ne_ok _ _ _)
  · unfold attemptBody at h
    simp only at h
    split at h
    · next r s2 hr => exact absurd ((congrArg Prod.fst hr).trans (congrArg some h)) (recvLoop_ne_ok _ _ _)
    · exact ⟨_, _, Verdict.result_eq_ok h⟩

/-- The counter and its limit after a failed attempt (R158, R186). -/
theorem recordFailure_attempt (f : Failure) (frame : List Byte) (fn : Byte) (m : Mode) (k : Word) (s : State) :
    (recordFailure f (attempt frame fn m k s).2).fails = s.fails + 1 ∧
      (recordFailure f (attempt frame fn m k s).2).maxAttempts = s.maxAttempts := by
  rw [recordFailure_frame, attempt_frame]
  exact ⟨rfl, rfl⟩

/-- With no attempt succeeding, the loop ends in `FATAL` within the attempts left (R150, R158). -/
theorem executeLoop_fatal {frame : List Byte} {fn : Byte} {m : Mode} {k : Word}
    (hno : ∀ s ws, (attempt frame fn m k s).1 ≠ .ok ws) (n : Nat) (s : State) (hlt : s.fails < s.maxAttempts)
    (hn : s.maxAttempts ≤ s.fails + n) : (executeLoop frame fn m k n s).seq = .fatal := by
  induction n generalizing s with
  | zero => omega
  | succ n ih =>
    unfold executeLoop
    split
    · next ws t ha => exact absurd (congrArg Prod.fst ha) (hno s ws)
    · rfl
    · next f t ha =>
      obtain ⟨hfails, hmax⟩ := recordFailure_attempt f frame fn m k s
      rw [ha] at hfails hmax
      simp only at hfails hmax ⊢
      split
      · rfl
      · exact ih _ (by omega) (by omega)

theorem prepareExecute_maxAttempts (fn : Byte) (p : List Byte) (m : Mode) (k : Word) (s : State) :
    (prepareExecute fn p m k s).maxAttempts = s.maxAttempts := by
  unfold prepareExecute takeDelay
  split <;> rfl

/-- `execute` of a request that no attempt can satisfy ends in `FATAL`. -/
theorem execute_fatal {s : State} (h : s.Inv) (hi : s.seq = .idle) {fn : Byte} {p : List Byte} {m : Mode} {k : Word}
    (hno : ∀ frame t ws, (attempt frame fn m k t).1 ≠ .ok ws) : (execute fn p m k s).seq = .fatal := by
  have hmax := prepareExecute_maxAttempts fn p m k s
  exact executeLoop_fatal (hno _) _ _ (loopInv_prepare h hi fn p m k).fails (by omega)

theorem exec_execute_of_legal {s : State} (hi : s.seq = .idle) {fn : Byte} (hfn : legalFn fn = true) (p : List Byte)
    (m : Mode) (k : Word) :
    exec (.execute fn p m k) s = .next (setRet (executeRet (execute fn p m k s)) (execute fn p m k s)) := by
  show execExecute fn p m k s = _
  rw [execExecute, if_pos hi, if_pos hfn]

/-- Settles O19: twice the count does not fit the one-byte length field, so no attempt succeeds; what `FATAL` means for the
flags is the invariant's. -/
theorem countOver127IsFatal : Obligations.CountOver127IsFatal := by
  intro s k h hi hk
  have hno : ∀ dev rx fn ws, validate dev rx fn .selfdesc k ≠ .ok ws := fun dev rx fn ws hv => by
    have := count_le_of_validate_ok hv
    omega
  refine ⟨fun rx => hno s.devAddr rx 0x03, fun a => ?_, fun a ha => ?_⟩
  · have hfatal : (execute 0x03 (encRead a k) .selfdesc k s).seq = .fatal := execute_fatal h hi fun _ _ ws hok => by
      obtain ⟨dev, rx, hv⟩ := validate_of_attempt_ok hok
      exact hno dev rx 0x03 ws hv
    have hinv := inv_execute h hi 0x03 (encRead a k) .selfdesc k
    obtain ⟨hdone, -, hlen⟩ := hinv.unfinished (by rw [hfatal]; decide)
    exact ⟨_, exec_execute_of_legal hi (by decide) _ _ _, hfatal, hinv.fatal_iff.2 hfatal, hdone, hlen⟩
  · exact ⟨_, exec_readWords_of_good hi ha k, rfl, rfl⟩

end Sys2Proof.Machine
end

section
/-! `toWord` (R163): truncation toward zero is symmetric, so both signs follow from the floor of a value that is not
negative. -/

namespace Sys2Proof.Machine

theorem exec_toWord (x : Number) (s : State) : exec (.toWord x) s = .next (setRet (.int (toWord x)) s) := rfl

theorem toWord_neg (n : Int) (d : Nat) : toWord ⟨-n, d⟩ = -toWord ⟨n, d⟩ :=
  Int.neg_tdiv n (d + 1)

theorem toWord_integer (n : Int) : toWord ⟨n, 0⟩ = n := Int.tdiv_one n

/-- On a value that is not negative `toWord` is the floor. -/
theorem toWord_floor {n : Int} (hn : 0 ≤ n) (d : Nat) :
    toWord ⟨n, d⟩ * (d + 1) ≤ n ∧ n < (toWord ⟨n, d⟩ + 1) * (d + 1) := by
  have hd : (0 : Int) < d + 1 := by omega
  have hfloor : toWord ⟨n, d⟩ = n / (d + 1) := Int.tdiv_eq_ediv_of_nonneg hn
  rw [hfloor]
  exact ⟨Int.ediv_mul_le n hd.ne', Int.lt_ediv_add_one_mul_self n hd⟩

/-- On a value that is not positive `toWord` is the ceiling: the floor of the negated value, negated. -/
theorem toWord_ceiling {n : Int} (hn : n ≤ 0) (d : Nat) :
    n ≤ toWord ⟨n, d⟩ * (d + 1) ∧ (toWord ⟨n, d⟩ - 1) * (d + 1) < n := by
  obtain ⟨hle, hlt⟩ := toWord_floor (neg_nonneg.2 hn) d
  rw [toWord_neg] at hle hlt
  constructor <;> linarith

/-- Settles O21: the floor for a value that is not negative, the ceiling for one that is not positive. -/
theorem toWordTruncates : Obligations.ToWordTruncates := by
  rintro s ⟨n, d⟩
  refine ⟨toWord ⟨n, d⟩, exec_toWord _ s, fun hn => toWord_floor hn d, fun hn => toWord_ceiling hn d, ?_⟩
  rintro rfl
  exact toWord_integer n

end Sys2Proof.Machine
end

section
/-! The usage checks that fail (R164), and the fault at acceptance (R151, R184). -/

namespace Sys2Proof.Machine

open Sys2Proof.Claims

theorem valueOutOfRange_iff (x : Number) : valueOutOfRange x = true ↔ ¬ goodValue x := by
  rw [valueOutOfRange, Bool.or_eq_true, decide_eq_true_eq, decide_eq_true_eq, ← not_le, ← not_le, ← not_and_or]
  rfl

/-- Checks 2 and 3: an address that does not fit, whatever the values. -/
theorem usageCheck_of_badAddress {fn : Byte} (hfn : legalFn fn = true) {a : Int} (ha : ¬ goodAddress a)
    (vals : List Number) : usageCheck fn a vals = some .usageBadAddress := by
  rw [usageCheck, if_neg (by simp [hfn])]
  by_cases hneg : a < 0
  · rw [if_pos hneg]
  · have hhigh : 65535 < a := not_le.1 fun hle => ha ⟨not_lt.1 hneg, hle⟩
    rw [if_neg hneg, if_pos hhigh]

/-- Checks 4 and 5: behind a good address, too many values or a value that does not fit. -/
theorem usageCheck_of_badOperand {fn : Byte} (hfn : legalFn fn = true) {a : Int} (ha : goodAddress a)
    {vals : List Number} (hbad : (fn = fnWMulti ∧ 127 < vals.length) ∨ ∃ v ∈ vals, ¬ goodValue v) :
    usageCheck fn a vals = some .usageBadOperand := by
  obtain ⟨hlo, hhi⟩ := ha
  rw [usageCheck, if_neg (by simp [hfn]), if_neg (by omega), if_neg (by omega)]
  split_ifs with hcount hvals
  · rfl
  · rfl
  · obtain hlong | ⟨v, hmem, hv⟩ := hbad
    · exact absurd hlong hcount
    · exact absurd (List.any_eq_true.2 ⟨v, hmem, (valueOutOfRange_iff v).2 hv⟩) hvals

/-- In `IDLE` a failing check is a usage fault with its cause (R151). -/
theorem acceptCommand_of_usageCheck {s : State} (hi : s.seq = .idle) {fn : Byte} {a : Int} {vals : List Number} {c : Cause}
    (hc : usageCheck fn a vals = some c) (p : List Byte) (k : Word) : acceptCommand fn a vals p k s = faulted c s := by
  rw [acceptCommand, if_pos hi, hc]
  rfl

/-- Check 1 (R73, R164): another `fn`, whatever its operands. -/
theorem exec_cmdReserved_of_idle {s : State} (hi : s.seq = .idle) (fn : Byte) (a : Int) (x : Number) (xs : List Number) :
    exec (.cmdReserved fn a x xs) s = .next (faulted .usageBadFunction s) :=
  congrArg Host.Outcome.next (if_pos hi)

theorem exec_readWords_of_usageCheck {s : State} (hi : s.seq = .idle) {a : Int} {c : Cause}
    (hc : usageCheck fnRead a [] = some c) (k : Word) : exec (.readWords a k) s = .next (faulted c s) :=
  congrArg Host.Outcome.next (acceptCommand_of_usageCheck hi hc _ k)

theorem exec_writeWord_of_usageCheck {s : State} (hi : s.seq = .idle) {a : Int} {x : Number} {c : Cause}
    (hc : usageCheck fnWSingle a [x] = some c) : exec (.writeWord a x) s = .next (faulted c s) :=
  congrArg Host.Outcome.next (acceptCommand_of_usageCheck hi hc _ 0)

theorem exec_writeWords_of_usageCheck {s : State} (hi : s.seq = .idle) {a : Int} {xs : List Number} {c : Cause}
    (hc : usageCheck fnWMulti a xs = some c) : exec (.writeWords a xs) s = .next (faulted c s) :=
  congrArg Host.Outcome.next (acceptCommand_of_usageCheck hi hc _ 0)

/-- Settles O22: each kind of bad operand fails its check of R164, and the failing check is the fault. -/
theorem usageFaults : Obligations.UsageFaults := by
  intro s hi fn a x k xs
  refine ⟨fun _ _ _ => exec_cmdReserved_of_idle hi fn a x xs, fun ha => ⟨?_, ?_, ?_⟩, fun ha hx => ?_, fun ha hxs => ?_⟩
  · exact exec_readWords_of_usageCheck hi (usageCheck_of_badAddress rfl ha _) k
  · exact exec_writeWord_of_usageCheck hi (usageCheck_of_badAddress rfl ha _)
  · exact exec_writeWords_of_usageCheck hi (usageCheck_of_badAddress rfl ha _)
  · exact exec_writeWord_of_usageCheck hi
      (usageCheck_of_badOperand rfl ha (.inr ⟨x, List.mem_singleton_self x, hx⟩))
  · exact exec_writeWords_of_usageCheck hi (usageCheck_of_badOperand rfl ha (hxs.imp_left fun h => ⟨rfl, h⟩))

end Sys2Proof.Machine
end

section
/-! The calls on the transport (R45 to R47): what each leaves in the input buffer and that each is recorded once. -/

namespace Sys2Proof.Machine

@[simp] theorem advance_bus (tp : Transport) : tp.advance.bus = tp.bus := by
  unfold Transport.advance
  split <;> rfl

@[simp] theorem flushInput_inBuf (tp : Transport) : (Transport.flushInput tp).inBuf = tp.turn.arrivals := rfl

@[simp] theorem flushInput_bus (tp : Transport) :
    (Transport.flushInput tp).bus = tp.bus ++ [.flushInput tp.inBuf.length] :=
  congrArg (· ++ _) (advance_bus tp)

@[simp] theorem send_bus (frame : List Byte) (tp : Transport) :
    (Transport.send frame tp).2.bus = tp.bus ++ [.send frame tp.turn.answer] :=
  congrArg (· ++ _) (advance_bus tp)

@[simp] theorem recvByte_bus (tp : Transport) :
    (Transport.recvByte tp).2.bus = tp.bus ++ [.recvByte (Transport.recvByte tp).1] :=
  congrArg (· ++ _) (advance_bus tp)

/-- A byte is delivered only from the front of a buffer that holds one. -/
theorem cons_of_recvAnswer_byte {a : Answer} {bs : List Byte} {b : Byte} (h : recvAnswer a bs = .byte b) :
    bs = b :: restAfter (recvAnswer a bs) bs := by
  rw [h]
  unfold recvAnswer at h
  split at h
  · cases h
    rfl
  · cases h
  · cases h

/-- The byte delivered is the first of those buffered and arriving, and the others stay (R47). -/
theorem recvByte_inBuf_of_byte {tp : Transport} {b : Byte} (h : (Transport.recvByte tp).1 = .byte b) :
    tp.inBuf ++ tp.turn.arrivals = b :: (Transport.recvByte tp).2.inBuf := cons_of_recvAnswer_byte h

end Sys2Proof.Machine
end

section
/-! A failed attempt (R158, R186) and the transport's fatal fault (R165), after a call that left the transport `p`. -/

namespace Sys2Proof.Machine

open Sys2Proof.Claims

/-- A failed attempt leaves the transport and `CRC` alone. -/
theorem failAttempt_tp_crc (f : Failure) (s : State) :
    (failAttempt f s).tp = s.tp ∧ (failAttempt f s).crc = s.crc := by
  rcases failAttempt_cases f s with ⟨-, he⟩ | ⟨-, he⟩ <;> rw [he, recordFailure_frame] <;> exact ⟨rfl, rfl⟩

theorem failedWith_failAttempt (c : Cause) (s : State) (p : Transport) :
    FailedWith c s (failAttempt (.plain c) { s with tp := p }) := by
  unfold FailedWith phaseAfterFailure
  rcases failAttempt_cases (.plain c) { s with tp := p } with ⟨hmax, he⟩ | ⟨hlt, he⟩
  · have hmax : s.maxAttempts ≤ s.fails + 1 := hmax
    rw [he, if_pos hmax, if_pos hmax, if_pos hmax]
    rfl
  · have hlt : ¬ s.maxAttempts ≤ s.fails + 1 := Nat.not_le.2 hlt
    rw [he, if_neg hlt, if_neg hlt, if_neg hlt]
    rfl

theorem transportFatal_enterFatal (s : State) (p : Transport) :
    TransportFatal s (enterFatal .transportFatal { s with tp := p }) := rfl

end Sys2Proof.Machine
end

section
/-! Phases `FLUSH` and `SEND` (R154, R155). -/

namespace Sys2Proof.Machine

open Sys2Proof.Claims

theorem tick_of_flush {s : State} (h : s.seq = .flush) : tick s = .next (flushPhase s) := by rw [tick, h]

theorem tick_of_send {s : State} (h : s.seq = .send) : tick s = .next (sendPhase s) := by rw [tick, h]

/-- Settles O29: the phase's effect is one `flushInput`, recorded and leaving only what arrives after it. -/
theorem flushPhase_effect : Obligations.FlushPhase := fun s h =>
  ⟨flushPhase s, tick_of_flush h, rfl, flushInput_inBuf s.tp, flushInput_bus s.tp⟩

theorem sendPhase_eq (s : State) :
    sendPhase s = afterSend s.tp.turn.answer { s with tp := (Transport.send s.txFrame s.tp).2 } := rfl

/-- Whatever the answer, the phase makes no further call. -/
theorem afterSend_tp (a : Answer) (s : State) : (afterSend a s).tp = s.tp := by
  cases a with
  | ok => rfl
  | fault => exact (failAttempt_tp_crc _ s).1
  | fatalFault => rfl

/-- Settles O30: one recorded `send`, then the case of its answer. -/
theorem sendPhase_effect : Obligations.SendPhase := by
  intro s h
  have hbus : (sendPhase s).tp.bus = s.tp.bus ++ [.send s.txFrame s.tp.turn.answer] := by
    rw [sendPhase_eq, afterSend_tp, send_bus]
  refine ⟨sendPhase s, tick_of_send h, hbus, fun ha => ?_, fun ha => ?_, fun ha => ?_⟩ <;> rw [sendPhase_eq, ha]
  · rfl
  · exact ⟨failedWith_failAttempt _ s _, (failAttempt_tp_crc _ _).2⟩
  · exact transportFatal_enterFatal s _

end Sys2Proof.Machine
end

section
/-! Phases `RECV_HEAD` and `RECV_BODY` (R156). -/

namespace Sys2Proof.Machine

open Sys2Proof.Claims

theorem receiving_iff (s : State) : s.receiving = true ↔ s.seq = .recvHead ∨ s.seq = .recvBody := by
  rw [State.receiving, Bool.or_eq_true, decide_eq_true_eq, decide_eq_true_eq]

theorem tick_of_receiving {s : State} (hr : s.receiving = true) : tick s = recvPhase s := by
  obtain h | h := (receiving_iff s).1 hr <;> rw [tick, h]

/-- A legal state that is collecting a response has room for one more byte (R12, R131). -/
theorem rxlen_lt_of_receiving {s : State} (h : s.Inv) (hr : s.receiving = true) : s.rxlen < Config.rxbufMax := by
  obtain hs | hs := (receiving_iff s).1 hr
  · exact (h.head_len hs).trans (by decide)
  · have hneed := h.need (.inl hs)
    have hle := rxNeed_le (Memory.read s.rxbuf 1) (Memory.read s.rxbuf 2) s.reqMode
    exact (h.body_len hs).2.trans_le (hneed ▸ hle.2)

/-- What a byte leaves while a response is collected: it is stored and counted, the third completes the head, the
`RXNEED`-th the frame. -/
theorem afterStore_storeByte {s : State} (hr : s.receiving = true) (b : Byte) :
    afterStore (storeByte b s) = { s with
      rxbuf := Memory.write s.rxbuf s.rxlen b, rxlen := s.rxlen + 1
      rxneed := if s.seq = .recvHead ∧ s.rxlen = 2 then
          rxNeed (Memory.read (Memory.write s.rxbuf s.rxlen b) 1) (Memory.read (Memory.write s.rxbuf s.rxlen b) 2)
            s.reqMode
        else s.rxneed
      seq := if s.seq = .recvHead then (if s.rxlen = 2 then .recvBody else .recvHead)
        else (if s.rxlen + 1 = s.rxneed then .check else .recvBody) } := by
  obtain hs | hs := (receiving_iff s).1 hr
  · by_cases hl : s.rxlen = 2
    · rw [afterStore_head_done (s := storeByte b s) hs (congrArg (· + 1) hl), if_pos ⟨hs, hl⟩, if_pos hs, if_pos hl]
      rfl
    · have hl' : (storeByte b s).rxlen ≠ 3 := fun h3 => hl (Nat.succ.inj h3)
      rw [afterStore_head_more (s := storeByte b s) hs hl', if_neg (fun h => hl h.2), if_pos hs, if_neg hl, ← hs]
      rfl
  · have hs' : s.seq ≠ .recvHead := by rw [hs]; decide
    by_cases hl : s.rxlen + 1 = s.rxneed
    · rw [afterStore_body_done (s := storeByte b s) hs hl, if_neg (fun h => hs' h.1), if_neg hs', if_pos hl]
      rfl
    · rw [afterStore_body_more (s := storeByte b s) hs hl, if_neg (fun h => hs' h.1), if_neg hs', if_neg hl, ← hs]
      rfl

/-- With room for it, the byte delivered is stored. -/
theorem recvPhase_of_byte {s : State} (hlt : s.rxlen < Config.rxbufMax) {b : Byte}
    (ha : (Transport.recvByte s.tp).1 = .byte b) :
    recvPhase s = .next (afterStore (storeByte b { s with tp := (Transport.recvByte s.tp).2 })) := by
  simp only [recvPhase, ha, afterRecv, receiveByte, if_pos hlt]

theorem recvPhase_of_timeout {s : State} (ha : (Transport.recvByte s.tp).1 = .timeout) :
    recvPhase s = .next (failAttempt (.plain .transportTimeout) { s with tp := (Transport.recvByte s.tp).2 }) := by
  simp only [recvPhase, ha, afterRecv]

theorem recvPhase_of_fatalFault {s : State} (ha : (Transport.recvByte s.tp).1 = .fatalFault) :
    recvPhase s = .next (enterFatal .transportFatal { s with tp := (Transport.recvByte s.tp).2 }) := by
  simp only [recvPhase, ha, afterRecv]

/-- Settles O31: one recorded `recvByte`, then the case of its answer; a legal state has room for the byte. -/
theorem receivePhase : Obligations.ReceivePhase := by
  intro s h hr
  have hbus := recvByte_bus s.tp
  rw [tick_of_receiving hr]
  cases ha : (Transport.recvByte s.tp).1 <;> rw [ha] at hbus
  case byte b =>
    refine ⟨_, .byte b, recvPhase_of_byte (rxlen_lt_of_receiving h hr) ha, ?_, ?_, nofun, nofun⟩ <;>
      rw [afterStore_storeByte (s := { s with tp := (Transport.recvByte s.tp).2 }) hr]
    · exact hbus
    · rintro _ ⟨⟩
      refine ⟨recvByte_inBuf_of_byte ha, read_write_same h.rxbuf_wf _ b, fun n hn => read_write_ne b hn, ?_⟩
      rw [rxNeed_eq]
  case timeout =>
    obtain ⟨htp, hcrc⟩ :=
      failAttempt_tp_crc (.plain .transportTimeout) { s with tp := (Transport.recvByte s.tp).2 }
    refine ⟨_, .timeout, recvPhase_of_timeout ha, ?_, nofun, fun _ => ⟨failedWith_failAttempt _ s _, hcrc⟩, nofun⟩
    rw [htp]
    exact hbus
  case fatalFault =>
    exact ⟨_, .fatalFault, recvPhase_of_fatalFault ha, hbus, nofun, nofun, fun _ => transportFatal_enterFatal s _⟩

end Sys2Proof.Machine
end

section
/-! Decoding and encoding (30_encoding.md): `decode` undoes `encode` on well-formed operations, and `encode` undoes
`decode` on frames. -/

namespace Sys2Proof.Machine

theorem toNat_ofNat_length {α : Type} {w : Nat} {l : List α} (h : l.length < 2 ^ w) :
    (BitVec.ofNat w l.length).toNat = l.length := by
  rw [BitVec.toNat_ofNat, Nat.mod_eq_of_lt h]

/-- An integer in the domain of `count` is carried by the port unchanged (R70). -/
theorem countOfNumber_toNat (k : Word) : countOfNumber (Number.ofInt k.toNat) = k := by
  have hk := k.isLt
  have hdom : ((k.toNat : Int) % 1 = 0 ∧ 0 ≤ (k.toNat : Int) / 1 ∧ (k.toNat : Int) / 1 ≤ 65535) := by omega
  simpa [countOfNumber, Number.ofInt] using fun h => absurd hdom.2.2 (by omega)

theorem decodeRequest_twoField_read (d : Byte) (a k c : Word) :
    decodeRequest (withCrc (twoFieldBody d fnRead a k) c) = .ok (.reqRead d a k c) := by
  simp [decodeRequest, withCrc, twoFieldBody, be16, le16]

theorem decodeRequest_twoField_wsingle (d : Byte) (r v c : Word) :
    decodeRequest (withCrc (twoFieldBody d fnWSingle r v) c) = .ok (.reqWSingle d r v c) := by
  simp [decodeRequest, withCrc, twoFieldBody, be16, le16, show ¬ fnWSingle = fnRead by decide]

theorem decodeRequest_wmulti (d : Byte) (a : Word) {vs : List Word} (hn : vs.length ≤ 127) (c : Word) :
    decodeRequest (withCrc (wmultiBody d a vs) c) = .ok (.reqWMulti d a vs c) := by
  have hcount : (BitVec.ofNat 16 vs.length).toNat = vs.length := toNat_ofNat_length (by omega)
  have hbytes : (BitVec.ofNat 8 (2 * vs.length)).toNat = 2 * vs.length := by rw [BitVec.toNat_ofNat]; omega
  simp only [withCrc, wmultiBody, wmultiPayload, be16, List.cons_append, List.nil_append, decodeRequest, u16be_bytes,
    hcount]
  rw [if_neg (by decide), if_neg (by decide), if_pos trivial, if_pos hbytes, splitWords_append]
  simp [le16]

theorem decodeResponse_read (d : Byte) {data : List Byte} (hn : data.length ≤ 255) (c : Word) :
    decodeResponse (withCrc (rspReadBody d data) c) = .ok (.rspRead d data c) := by
  have hcount : (BitVec.ofNat 8 data.length).toNat = data.length := toNat_ofNat_length (by omega)
  simp only [withCrc, rspReadBody, List.cons_append, decodeResponse, hcount, List.drop_left, List.take_left]
  simp [le16]

theorem decodeResponse_twoField_wsingle (d : Byte) (r v c : Word) :
    decodeResponse (withCrc (twoFieldBody d fnWSingle r v) c) = .ok (.rspWSingle d r v c) := by
  simp [decodeResponse, withCrc, twoFieldBody, be16, le16, show ¬ fnWSingle = fnRead by decide]

theorem decodeResponse_twoField_wmulti (d : Byte) (a k c : Word) :
    decodeResponse (withCrc (twoFieldBody d fnWMulti a k) c) = .ok (.rspWMulti d a k c) := by
  simp [decodeResponse, withCrc, twoFieldBody, be16, le16, show ¬ fnWMulti = fnRead by decide,
    show ¬ fnWMulti = fnWSingle by decide]

/-- No function code of a request has bit 7 set (R61). -/
theorem not_legalFn_of_bit7 : ∀ fn : Byte, bit7 fn = true → fn ≠ fnRead ∧ fn ≠ fnWSingle ∧ fn ≠ fnWMulti := by
  decide

theorem decodeResponse_exc (d : Byte) {fn : Byte} (hfn : bit7 fn = true) (e : Byte) (c : Word) :
    decodeResponse (withCrc (rspExcBody d fn e) c) = .ok (.rspExc d fn e c) := by
  obtain ⟨h3, h6, h10⟩ := not_legalFn_of_bit7 fn hfn
  simp [decodeResponse, withCrc, rspExcBody, le16, h3, h6, h10, hfn]

theorem decode_cmdReserved {fn : Byte} (hfn : legalFn fn = false) (a : Int) (b : Number) (vals : List Number) :
    decode (.cmd fn a b vals) = .ok (.cmdReserved fn a b vals) := by
  simp only [legalFn, Bool.or_eq_false_iff, decide_eq_false_iff_not] at hfn
  obtain ⟨⟨h3, h6⟩, h10⟩ := hfn
  rw [decode, if_neg h3, if_neg h6, if_neg h10]

/-- Settles O1: a count and a frame are read back from their fields; every other form carries its operands as they are. -/
theorem decodeOfEncode : Obligations.DecodeOfEncode := by
  intro i hwf
  cases i with
  | readWords start count => exact congrArg (fun k => Except.ok (Instr.readWords start k)) (countOfNumber_toNat count)
  | cmdReserved fn a b vals => exact decode_cmdReserved (by simpa [Instr.wf] using hwf) a b vals
  | reqRead d a k c => exact decodeRequest_twoField_read d a k c
  | reqWSingle d r v c => exact decodeRequest_twoField_wsingle d r v c
  | reqWMulti d a vs c =>
    have hn : vs.length ≤ 127 := of_decide_eq_true (Bool.and_eq_true_iff.1 hwf).1
    exact decodeRequest_wmulti d a hn c
  | rspRead d data c => exact decodeResponse_read d (of_decide_eq_true hwf) c
  | rspWSingle d r v c => exact decodeResponse_twoField_wsingle d r v c
  | rspWMulti d a k c => exact decodeResponse_twoField_wmulti d a k c
  | rspExc d fn e c => exact decodeResponse_exc d hwf e c
  | _ => rfl

/-- The words split off are exactly the bytes before the rest. -/
theorem splitWords_eq_some {n : Nat} {bs rest : List Byte} {ws : List Word} (h : splitWords n bs = some (ws, rest)) :
    ws.length = n ∧ bs = ws.flatMap be16 ++ rest := by
  induction n, bs using splitWords.induct generalizing ws with
  | case1 bs =>
    cases h
    exact ⟨rfl, rfl⟩
  | case2 n a b bs ih =>
    rw [splitWords, Option.map_eq_some_iff] at h
    obtain ⟨⟨ws', rest'⟩, hsplit, heq⟩ := h
    cases heq
    obtain ⟨hlen, hbs⟩ := ih hsplit
    exact ⟨congrArg (· + 1) hlen, by simp [hbs]⟩
  | case3 => simp [splitWords] at h

/-- A frame to emit that decodes is what the encoder writes for it. -/
theorem encode_of_decodeRequest {frame : List Byte} {i : Instr} (h : decodeRequest frame = .ok i) :
    encode i = .tx frame := by
  unfold decodeRequest at h
  split at h
  case h_2 => cases h
  case h_1 address fn rest =>
  split_ifs at h with h3 h6 h10
  · split at h
    · cases h
      simp [encode, withCrc, twoFieldBody, h3]
    · cases h
  · split at h
    · cases h
      simp [encode, withCrc, twoFieldBody, h6]
    · cases h
  · split at h
    case h_2 => cases h
    case h_1 s1 s0 c1 c0 byteCount tail =>
    split_ifs at h with hcount
    split at h
    case h_2 => cases h
    case h_1 values k0 k1 hsplit =>
    cases h
    obtain ⟨hlen, htail⟩ := splitWords_eq_some hsplit
    have hfield : BitVec.ofNat 16 values.length = u16be c1 c0 := by rw [hlen, BitVec.ofNat_toNat, BitVec.setWidth_eq]
    have hbyte : BitVec.ofNat 8 (2 * values.length) = byteCount := by
      rw [hlen, ← hcount, BitVec.ofNat_toNat, BitVec.setWidth_eq]
    simp [encode, withCrc, wmultiBody, wmultiPayload, hfield, hbyte, htail, h10]

/-- A received frame that decodes is what the encoder writes for it. -/
theorem encode_of_decodeResponse {frame : List Byte} {i : Instr} (h : decodeResponse frame = .ok i) :
    encode i = .rx frame := by
  unfold decodeResponse at h
  split at h
  case h_2 => cases h
  case h_1 address fn rest =>
  split_ifs at h with h3 h6 h10 h7
  · split at h
    case h_2 => cases h
    case h_1 byteCount tail =>
    split at h
    case h_2 => cases h
    case h_1 k0 k1 hdrop =>
    cases h
    have hlen : (tail.take byteCount.toNat).length = byteCount.toNat := by
      have := congrArg List.length hdrop
      simp only [List.length_drop, List.length_cons, List.length_nil] at this
      rw [List.length_take]
      omega
    have htail : tail = tail.take byteCount.toNat ++ [k0, k1] := by rw [← hdrop, List.take_append_drop]
    have hbyte : BitVec.ofNat 8 (tail.take byteCount.toNat).length = byteCount := by
      rw [hlen, BitVec.ofNat_toNat, BitVec.setWidth_eq]
    rw [encode, withCrc, rspReadBody, hbyte, le16_u16le, h3]
    simp [← htail]
  · split at h
    · cases h
      simp [encode, withCrc, twoFieldBody, h6]
    · cases h
  · split at h
    · cases h
      simp [encode, withCrc, twoFieldBody, h10]
    · cases h
  · split at h
    · cases h
      simp [encode, withCrc, rspExcBody]
    · cases h

/-- Settles O2: each direction's decoder reads every byte of a frame once. -/
theorem framesAreLossless : Obligations.FramesAreLossless := fun _ _ =>
  ⟨encode_of_decodeRequest, encode_of_decodeResponse⟩

/-- Settles O3: each word is evaluated. -/
theorem specExamplesDecode : Obligations.SpecExamplesDecode := by
  unfold Obligations.SpecExamplesDecode
  decide

end Sys2Proof.Machine
end

section
/-! One step (00_scope.md section 3; logs 5, 6, 11, 13): the operations that are frames on the wire run by the frame alone,
and what taking a request from the port can do. -/

namespace Sys2Proof.Machine

open Sys2Proof.Claims

/-! ### The step by the port -/

theorem step_of_port_nil {s : State} (h : s.port = []) : step s = tick s := by
  rw [step, stepState, h]

theorem step_of_waiting {s : State} {item : PortItem} {rest : List PortItem} (h : s.port = item :: rest)
    (hb : s.busy = true) (hw : item.waits = true) : step s = tick s := by
  rw [step, stepState, h]
  simp [hb, hw]

theorem step_of_taken {s : State} {item : PortItem} {rest : List PortItem} (h : s.port = item :: rest)
    (hw : s.busy = false ∨ item.waits = false) : step s = takeItem item { s with port := rest } := by
  have hgo : (s.busy && item.waits) = false := by
    obtain hw | hw := hw <;> simp [hw]
  rw [step, stepState, h]
  simp [hgo]

theorem takeItem_op {w : PortWord} {i : Instr} (h : decode w = .ok i) (s : State) :
    takeItem (.op w) s = exec i s := by
  simp only [takeItem, h]

theorem takeItem_op_error {w : PortWord} {e : DecodeError} (h : decode w = .error e) (s : State) :
    takeItem (.op w) s = unlistedFrame w s := by
  simp only [takeItem, h]

/-- Settles O4: the port's head is taken when it need not wait. -/
theorem stepRunsDecoded : Obligations.StepRunsDecoded := by
  intro s w rest i hport hdec hgo
  rw [step_of_taken hport hgo, takeItem_op hdec]

/-! ### Frames on the wire -/

/-- A request row runs as the emission of its frame. -/
theorem exec_of_encode_tx {i : Instr} {frame : List Byte} (h : encode i = .tx frame) (s : State) :
    exec i s = .next (emitFrame frame s) := by
  cases i <;> cases h <;> rfl

/-- A response row runs as the arrival of its frame. -/
theorem exec_of_encode_rx {i : Instr} {frame : List Byte} (h : encode i = .rx frame) (s : State) :
    exec i s = lineDelivers frame s := by
  cases i <;> cases h <;> rfl

/-- A frame to emit is emitted, whether or not it is a row's: decoding loses nothing of it. -/
theorem takeItem_tx (frame : List Byte) (s : State) : takeItem (.op (.tx frame)) s = .next (emitFrame frame s) := by
  cases h : decode (.tx frame) with
  | ok i => rw [takeItem_op h, exec_of_encode_tx (encode_of_decodeRequest h)]
  | error e => rw [takeItem_op_error h, unlistedFrame]

/-- A received frame arrives, whether or not it is a row's. -/
theorem takeItem_rx (frame : List Byte) (s : State) : takeItem (.op (.rx frame)) s = lineDelivers frame s := by
  cases h : decode (.rx frame) with
  | ok i => rw [takeItem_op h, exec_of_encode_rx (encode_of_decodeResponse h)]
  | error e => rw [takeItem_op_error h, unlistedFrame]

theorem emitFrame_of_holds {s : State} {frame : List Byte} (hs : s.seq = .send) (hf : s.txFrame = frame) :
    emitFrame frame s = sendPhase s := if_pos ⟨hs, hf⟩

theorem emitFrame_of_not {s : State} {frame : List Byte} (h : s.seq ≠ .send ∨ s.txFrame ≠ frame) :
    emitFrame frame s = s := if_neg (not_and_or.2 h)

/-! ### What a request can do -/

/-- What the host's acts in `IDLE` make of `s`: a configuration write, a usage fault, an accepted command, whose payload is
inside R110's domain and makes a request row's frame, and the two exchanges that are one call. -/
inductive HostAct (s : State) : State → Prop
  | config (r : ConfigReg) (v : Nat) : legalConfig r v = true → HostAct s (setConfig r v s)
  | usage (c : Cause) : HostAct s (usageFault c s)
  | accepted (fn : Byte) (p : List Byte) (k : Word) (i : Instr) : legalFn fn = true → p.length ≤ 259 →
      decodeRequest (buildFrame s.devAddr fn p) = .ok i → i.wf = true → HostAct s (startRequest fn p (modeOf fn) k s)
  | attempted (frame : List Byte) (fn : Byte) (m : Mode) (k : Word) (v : RetVal) :
      HostAct s (setRet v (attempt frame fn m k s).2)
  | executed (fn : Byte) (p : List Byte) (m : Mode) (k : Word) (v : RetVal) : HostAct s (setRet v (execute fn p m k s))

/-- What taking `item` from the port can make of `s`, where it answers a next state. -/
inductive Taken (item : PortItem) (s : State) : State → Prop
  /-- CRC port operations, functions that return a value, reads, `connect`, `close`, and what is without effect. -/
  | quiet (c : Word) (p : Transport) (v : RetVal) : Taken item s { s with crc := c, tp := p, ret := v }
  | reset : item = .reset → Taken item s (resetBlock s)
  | host (t : State) : s.seq = .idle → HostAct s t → Taken item s t
  | emitted : s.seq = .send → Taken item s (sendPhase s)
  | arrived (bs : List Byte) (t : State) : drain bs s = .next t → Taken item s t

theorem Taken.unchanged (item : PortItem) (s : State) : Taken item s s := .quiet s.crc s.tp s.ret

theorem Taken.returned (item : PortItem) (s : State) (v : RetVal) : Taken item s (setRet v s) := .quiet s.crc s.tp v

/-- Acceptance of a command, whose payload is inside R110's domain and makes a request row's frame when the checks pass. -/
theorem taken_acceptCommand (item : PortItem) {fn : Byte} {a : Int} {vals : List Number} {p : List Byte} (k : Word)
    {s : State} (hrow : usageCheck fn a vals = none → p.length ≤ 259 ∧
      ∃ i, decodeRequest (buildFrame s.devAddr fn p) = .ok i ∧ i.wf = true) :
    Taken item s (acceptCommand fn a vals p k s) := by
  obtain ⟨-, he⟩ | ⟨hi, c, -, he⟩ | ⟨hi, hu, he⟩ := acceptCommand_cases fn a vals p k s <;> rw [he]
  · exact .unchanged item s
  · exact .host _ hi (.usage c)
  · obtain ⟨hp, i, hdec, hwf⟩ := hrow hu
    exact .host _ hi (.accepted fn p k i (usageCheck_eq_none hu).1 hp hdec hwf)

theorem taken_writeWords (item : PortItem) (a : Int) (xs : List Number) (s : State) :
    Taken item s (acceptCommand fnWMulti a xs (encWMulti (addressWord a) (xs.map valueWord)) 0 s) := by
  refine taken_acceptCommand item 0 fun hu => ?_
  obtain ⟨-, -, -, hcount, -⟩ := usageCheck_eq_none hu
  have hn : (xs.map valueWord).length ≤ 127 := by simpa using hcount rfl
  have hp := length_encWMulti (addressWord a) hn
  exact ⟨by omega, _, decode_wmulti s.devAddr (addressWord a) _ hn,
    Bool.and_eq_true_iff.2 ⟨decide_eq_true hn, decide_eq_true rfl⟩⟩

theorem taken_emitFrame (item : PortItem) (frame : List Byte) (s : State) : Taken item s (emitFrame frame s) := by
  unfold emitFrame
  split
  · next h => exact .emitted h.1
  · exact .unchanged item s

/-- Every row but the reserved CRC code answers with one of the effects of `Taken`. -/
theorem taken_exec (item : PortItem) {i : Instr} {s t : State} (h : exec i s = .next t) : Taken item s t := by
  cases i with
  | crcReserved => cases h
  | crcNop => cases h; exact .quiet s.crc s.tp s.ret
  | crcInit => cases h; exact .quiet _ s.tp s.ret
  | crcUpdate b => cases h; exact .quiet _ s.tp s.ret
  | readWords a k =>
    cases h
    exact taken_acceptCommand item k fun _ =>
      ⟨by simp [encRead], _, decode_read s.devAddr (addressWord a) k, decide_eq_true rfl⟩
  | writeWord a x =>
    cases h
    exact taken_acceptCommand item 0 fun _ =>
      ⟨by simp [encWSingle], _, decode_wsingle s.devAddr (addressWord a) (valueWord x), decide_eq_true rfl⟩
  | writeWords a xs => cases h; exact taken_writeWords item a xs s
  | cmdReserved fn a b vals =>
    cases h
    split
    · next hi => exact .host _ hi (.usage _)
    · exact .unchanged item s
  | reqRead d a k c => cases h; exact taken_emitFrame item _ s
  | reqWSingle d r v c => cases h; exact taken_emitFrame item _ s
  | reqWMulti d a vs c => cases h; exact taken_emitFrame item _ s
  | rspRead d data c => exact .arrived _ t h
  | rspWSingle d r v c => exact .arrived _ t h
  | rspWMulti d a k c => exact .arrived _ t h
  | rspExc d fn e c => exact .arrived _ t h
  | attempt frame fn m k =>
    cases h
    split
    · next hi => exact .host _ hi (.attempted frame fn m k _)
    · exact .unchanged item s
  | execute fn p m k =>
    cases h
    split
    · next hi =>
      split
      · exact .host _ hi (.executed fn p m k _)
      · exact .host _ hi (.usage _)
    · exact .unchanged item s
  | _ => cases h; exact .returned item s _

theorem taken_writeConfig (item : PortItem) {r : ConfigReg} {v : Nat} {s t : State} (h : writeConfig r v s = .next t) :
    Taken item s t := by
  unfold writeConfig at h
  split_ifs at h with hi hlegal
  cases h
  exact .host _ (not_not.1 hi) (.config r v hlegal)

theorem taken_readReg (item : PortItem) {r : HostReg} {s t : State} (h : readReg r s = .next t) : Taken item s t := by
  unfold readReg at h
  split_ifs at h
  cases h
  exact .returned item s _

theorem taken_unlistedFrame (item : PortItem) {w : PortWord} {s t : State} (h : unlistedFrame w s = .next t) :
    Taken item s t := by
  cases w with
  | rx frame => exact .arrived _ t h
  | tx frame => cases h; exact taken_emitFrame item frame s
  | _ => cases h; exact .unchanged item s

/-- A request that is taken has one of the effects of `Taken`. -/
theorem taken_takeItem {item : PortItem} {s t : State} (h : takeItem item s = .next t) : Taken item s t := by
  cases item with
  | op w =>
    cases hdec : decode w with
    | ok i => exact taken_exec _ (takeItem_op hdec s ▸ h)
    | error e => exact taken_unlistedFrame _ (takeItem_op_error hdec s ▸ h)
  | reset => cases h; exact .reset rfl
  | writeConfig r v => exact taken_writeConfig _ h
  | read r => exact taken_readReg _ h
  | connect => cases h; exact .quiet s.crc _ _
  | close => cases h; exact .quiet s.crc _ s.ret

/-- A step is the sequencer's, or takes the oldest request. -/
theorem step_next_cases {s t : State} (h : step s = .next t) :
    tick s = .next t ∨ ∃ item rest, s.port = item :: rest ∧ Taken item { s with port := rest } t := by
  obtain he | ⟨item, rest, hport, -, he⟩ := step_cases s <;> rw [he] at h
  · exact .inl h
  · exact .inr ⟨item, rest, hport, taken_takeItem h⟩

end Sys2Proof.Machine
end

section
/-! One step of the sequencer (R151 to R159): everything it can do, and what a failed attempt writes. -/

namespace Sys2Proof.Machine

open Sys2Proof.Claims

/-! ### A failed attempt -/

/-- A failed attempt writes `LAST_FAULT`, `EXC_CODE`, `FAILS`, and the phase with the fatal record. -/
theorem failAttempt_frame (f : Failure) (s : State) :
    failAttempt f s = { s with
      lastFault := f.cause, excCode := (failAttempt f s).excCode, fails := s.fails + 1, seq := (failAttempt f s).seq
      fatal := (failAttempt f s).fatal, fatalCause := (failAttempt f s).fatalCause } := by
  obtain ⟨-, he⟩ | ⟨-, he⟩ := failAttempt_cases f s
  · rw [he, recordFailure_frame]
    rfl
  · rw [he, recordFailure_frame]

theorem failAttempt_seq (f : Failure) (s : State) :
    (failAttempt f s).seq = .flush ∨ (failAttempt f s).seq = .fatal := by
  obtain ⟨-, he⟩ | ⟨-, he⟩ := failAttempt_cases f s <;> rw [he]
  · exact .inr rfl
  · exact .inl rfl

/-- The phase in which an attempt fails does not matter. -/
theorem failAttempt_with_seq (f : Failure) (q : Phase) (s : State) :
    failAttempt f { s with seq := q } = failAttempt f s := by
  obtain ⟨hle, he⟩ | ⟨hlt, he⟩ := failAttempt_cases f s
  · obtain ⟨-, he'⟩ | ⟨hlt, -⟩ := failAttempt_cases f { s with seq := q }
    · rw [he, he', recordFailure_frame, recordFailure_frame f s]
      cases f <;> rfl
    · exact absurd hle (Nat.not_le.2 hlt)
  · obtain ⟨hle, -⟩ | ⟨-, he'⟩ := failAttempt_cases f { s with seq := q }
    · exact absurd hle (Nat.not_le.2 hlt)
    · rw [he, he', recordFailure_frame, recordFailure_frame f s]
      cases f <;> rfl

/-! ### The phases -/

theorem tick_of_delay {s : State} (h : s.seq = .delay) : tick s = .next (delayPhase s) := by rw [tick, h]

theorem tick_of_check {s : State} (h : s.seq = .check) : tick s = .next (checkPhase s) := by rw [tick, h]

theorem busy_eq_false_iff (s : State) : s.busy = false ↔ s.seq = .idle ∨ s.seq = .fatal := by
  rw [← Bool.not_eq_true, busy_iff, not_and_or, not_not, not_not]

theorem busy_of_receiving {s : State} (h : s.receiving = true) : s.busy = true := by
  obtain h | h := (receiving_iff s).1 h <;> simp [busy_iff, h]

theorem receiveByte_of_lt {s : State} (h : s.rxlen < Config.rxbufMax) (b : Byte) :
    receiveByte b s = .next (afterStore (storeByte b s)) := if_pos h

/-- Every outcome of the sequencer's step, `IDLE` and `FATAL` among them. -/
inductive Ticked (s : State) : State → Prop
  | rest : s.busy = false → Ticked s s
  | delayed : s.seq = .delay → Ticked s (delayPhase s)
  | flushed : s.seq = .flush → Ticked s (flushPhase s)
  | sent (p : Transport) : s.seq = .send → Ticked s { s with tp := p, seq := .recvHead }
  | sendFailed (p : Transport) : s.seq = .send → Ticked s (failAttempt (.plain .transportError) { s with tp := p })
  | stored (b : Byte) (p : Transport) : s.receiving = true → Ticked s (afterStore (storeByte b { s with tp := p }))
  | timedOut (p : Transport) : s.receiving = true →
      Ticked s (failAttempt (.plain .transportTimeout) { s with tp := p })
  | fatal (p : Transport) : s.seq = .send ∨ s.receiving = true → Ticked s (enterFatal .transportFatal { s with tp := p })
  | completed (ws : List Word) : s.seq = .check → s.verdict = .ok ws →
      Ticked s (completeCommand ws { s with crc := crc16 s.rxFrame })
  | rejected (f : Failure) : s.seq = .check → s.verdict.result = .failed f →
      Ticked s (failAttempt f { s with crc := crc16 s.rxFrame })

theorem ticked_sendPhase {s : State} (h : s.seq = .send) : Ticked s (sendPhase s) := by
  obtain he | he | he := sendPhase_cases s <;> rw [he]
  · exact .sent _ h
  · exact .sendFailed _ h
  · exact .fatal _ (.inl h)

theorem ticked_checkPhase {s : State} (h : s.seq = .check) : Ticked s (checkPhase s) := by
  unfold checkPhase
  cases hv : s.verdict with
  | ok ws => exact .completed ws h hv
  | frameFault c => exact .rejected (.plain c) h (congrArg Verdict.result hv)
  | deviceException code => exact .rejected (.exception code) h (congrArg Verdict.result hv)

theorem ticked_receiveByte {b : Byte} {s t : State} (hr : s.receiving = true) (h : receiveByte b s = .next t) :
    Ticked s t := by
  obtain ⟨-, rfl⟩ := receiveByte_eq h
  exact .stored b s.tp hr

theorem ticked_recvPhase {s t : State} (hr : s.receiving = true) (h : recvPhase s = .next t) : Ticked s t := by
  obtain ⟨b, -, -, rfl⟩ | rfl | rfl := recvPhase_cases h
  · exact .stored b _ hr
  · exact .timedOut _ hr
  · exact .fatal _ (.inr hr)

theorem ticked_tick {s t : State} (h : tick s = .next t) : Ticked s t := by
  obtain ⟨hb, rfl⟩ | ⟨hs, rfl⟩ | ⟨hs, rfl⟩ | ⟨hs, rfl⟩ | ⟨hr, h⟩ | ⟨hs, rfl⟩ := tick_cases h
  · exact .rest hb
  · exact .delayed hs
  · exact .flushed hs
  · exact ticked_sendPhase hs
  · exact ticked_recvPhase hr h
  · exact ticked_checkPhase hs

/-- Only a command in progress makes the sequencer act. -/
theorem Ticked.eq_of_not_busy {s t : State} (h : Ticked s t) (hb : s.busy = false) : t = s := by
  have hno : ∀ q : Phase, s.seq = q → q = .idle ∨ q = .fatal := fun q hq => hq ▸ (busy_eq_false_iff s).1 hb
  have hrecv : s.receiving ≠ true := fun hr => by simp [busy_of_receiving hr] at hb
  cases h with
  | rest => rfl
  | delayed hs => simpa using hno _ hs
  | flushed hs => simpa using hno _ hs
  | sent p hs => simpa using hno _ hs
  | sendFailed p hs => simpa using hno _ hs
  | stored b p hr => exact absurd hr hrecv
  | timedOut p hr => exact absurd hr hrecv
  | fatal p hs => exact hs.elim (fun hs => by simpa using hno _ hs) fun hr => absurd hr hrecv
  | completed ws hs => simpa using hno _ hs
  | rejected f hs => simpa using hno _ hs

/-! ### What a step keeps -/

/-- What the sequencer's steps keep, the arrival of a frame keeps. -/
theorem drain_keeps_of_ticked {P : State → Prop} (htp : ∀ p u, P u → P { u with tp := p })
    (htick : ∀ u v, P u → Ticked u v → P v) {bs : List Byte} {s t : State} (hs : P s) (h : drain bs s = .next t) : P t :=
  drain_keeps P (fun _ u hu => htp _ u hu) (fun _ u hu => htp _ u hu)
    (fun _ u v hu hr hv => htick u v hu (ticked_receiveByte hr hv))
    (fun u hu hc => htick u _ hu (ticked_checkPhase hc)) bs s t hs h

/-- A step other than reset keeps what the sequencer's steps and the registers it does not read keep, and, in `IDLE`, the
host's acts. -/
theorem step_keeps {P : State → Prop} {s t : State} (hnr : noReset s) (h : step s = .next t) (hs : P s)
    (hfree : ∀ c p q v u, P u → P { u with crc := c, tp := p, port := q, ret := v })
    (htick : ∀ u v, P u → Ticked u v → P v)
    (hhost : s.seq = .idle → ∀ q v, HostAct { s with port := q } v → P v) : P t := by
  obtain ht | ⟨item, rest, hport, ht⟩ := step_next_cases h
  · exact htick s t hs (ticked_tick ht)
  have hs' : P { s with port := rest } := hfree s.crc s.tp rest s.ret s hs
  cases ht with
  | quiet c p v => exact hfree c p rest v s hs
  | reset hitem => exact absurd (by rw [hport, hitem]; rfl) hnr
  | host _ hi hact => exact hhost hi rest t hact
  | emitted hsend => exact htick _ _ hs' (ticked_sendPhase hsend)
  | arrived bs _ hdrain =>
    exact drain_keeps_of_ticked (fun p u hu => hfree u.crc p u.port u.ret u hu) htick hs' hdrain

end Sys2Proof.Machine
end

section
/-! The invariant (Safety.lean): reset has it and every step keeps it; no step of a legal state faults. -/

namespace Sys2Proof.Machine

/-- Settles O37: in `IDLE` with no result and nothing sent, every clause is about a value of R26 or another phase. -/
theorem resetIsLegal : Obligations.ResetIsLegal := by
  obtain ⟨htx, hrx, hresult⟩ := wf_reset
  refine ⟨htx, hrx, hresult, ?_, ?_, ?_, ?_, ?_, ?_, ?_, ?_, ?_, ?_, ?_, ?_, ?_, ?_, ?_, ?_, ?_, ?_, ?_, ?_⟩ <;>
    simp [State.busy, State.reset]

theorem inv_resetBlock (s : State) : (resetBlock s).Inv := inv_port (inv_tp resetIsLegal s.tp) s.port

/-- A legal value written in `IDLE`, where no clause ties a configuration register to the request (R22). -/
theorem inv_setConfig {s : State} (h : s.Inv) (hi : s.seq = .idle) {r : ConfigReg} {v : Nat}
    (hv : legalConfig r v = true) : (setConfig r v s).Inv := by
  have hseq : (setConfig r v s).seq = .idle := by cases r <;> exact hi
  have hbusy : (setConfig r v s).busy = false := (busy_eq_false_iff _).2 (.inl hseq)
  have hcause : s.fatalCause = .none := by
    by_contra hc
    exact absurd (hi.symm.trans (h.fatalCause_iff.1 hc)) (by decide)
  have hmax : 1 ≤ (setConfig r v s).maxAttempts := by
    cases r with
    | maxAttempts => exact of_decide_eq_true hv
    | _ => exact h.maxAttempts_pos
  have htimeout : 1 ≤ (setConfig r v s).rxTimeout := by
    cases r with
    | rxTimeout => exact of_decide_eq_true hv
    | _ => exact h.rxTimeout_pos
  cases r <;>
    exact ⟨h.txbuf_wf, h.rxbuf_wf, h.result_wf, h.txlen_le, h.rxlen_le, h.resultLen_le, hmax, htimeout,
      h.fatal_iff, h.fatalCause_iff, fun he => absurd (hcause.symm.trans he) (by decide), h.unfinished, h.done_usage,
      fun hb => absurd (hbusy.symm.trans hb) (by decide), h.busy_fn, fun hb => absurd (hbusy.symm.trans hb) (by decide),
      h.delay_first, h.write_delayed, h.send_len, h.head_len, h.body_len, h.check_len, h.need⟩

theorem inv_hostAct {s t : State} (h : s.Inv) (hi : s.seq = .idle) (hact : HostAct s t) : t.Inv := by
  cases hact with
  | config r v hv => exact inv_setConfig h hi hv
  | usage c => exact inv_usageFault h hi c
  | accepted fn p k i hfn hp hdec hwf => exact inv_startRequest h hi fn p k hp hfn i hdec hwf
  | attempted frame fn m k v => exact inv_ret (inv_attempt h hi frame fn m k) v
  | executed fn p m k v => exact inv_ret (inv_execute h hi fn p m k) v

theorem inv_taken {item : PortItem} {s t : State} (h : s.Inv) (ht : Taken item s t) : t.Inv := by
  cases ht with
  | quiet c p v => exact inv_ret (inv_tp (inv_crc h c) p) v
  | reset => exact inv_resetBlock s
  | host _ hi hact => exact inv_hostAct h hi hact
  | emitted hs => exact inv_sendPhase h hs
  | arrived bs _ hdrain => exact inv_drain bs h hdrain

/-- Settles O36: the sequencer's step keeps the invariant, and so does everything a request can do. -/
theorem stepKeepsInvariant : Obligations.StepKeepsInvariant := by
  intro s t h hstep
  obtain ht | ⟨item, rest, -, ht⟩ := step_next_cases hstep
  · exact inv_tick h ht
  · exact inv_taken (inv_port h rest) ht

/-! ### No fault -/

/-- In a legal state the sequencer makes a step: a byte received has room. -/
theorem tick_next_of_inv {s : State} (h : s.Inv) : ∃ t, tick s = .next t := by
  cases hs : s.seq
  case recvHead | recvBody =>
    have hr : s.receiving = true := by simp [receiving_iff, hs]
    rw [tick_of_receiving hr]
    cases ha : (Transport.recvByte s.tp).1 with
    | byte b => exact ⟨_, recvPhase_of_byte (rxlen_lt_of_receiving h hr) ha⟩
    | timeout => exact ⟨_, recvPhase_of_timeout ha⟩
    | fatalFault => exact ⟨_, recvPhase_of_fatalFault ha⟩
  all_goals
    rw [tick, hs]
    exact ⟨_, rfl⟩

theorem inv_checkIfComplete {s : State} (h : s.Inv) : (checkIfComplete s).Inv := by
  unfold checkIfComplete
  split
  · next hs => exact inv_checkPhase h hs
  · exact h

/-- In a legal state a frame arrives: every byte taken has room. -/
theorem drain_next_of_inv {s : State} (h : s.Inv) (bs : List Byte) : ∃ t, drain bs s = .next t := by
  induction bs generalizing s with
  | nil => exact ⟨_, rfl⟩
  | cons b bs ih =>
    by_cases hr : s.receiving = true
    · have hlog : (logByte b s).Inv := inv_tp h _
      have hbyte := receiveByte_of_lt (rxlen_lt_of_receiving hlog hr) b
      simp only [drain, hr, if_true, hbyte]
      exact ih (inv_checkIfComplete (inv_receiveByte hlog hr hbyte))
    · exact ⟨_, drain_idle (Bool.eq_false_iff.2 hr) _⟩

/-- Of the operations only the arrival of a frame can fault. -/
theorem exec_ne_fault {i : Instr} {s : State} {f : Fault} (hd : ∀ bs, drain bs s ≠ .fault f) : exec i s ≠ .fault f := by
  cases i with
  | rspRead | rspWSingle | rspWMulti | rspExc => exact hd _
  | _ => exact nofun

theorem takeItem_ne_fault {item : PortItem} {s : State} {f : Fault} (hd : ∀ bs, drain bs s ≠ .fault f) :
    takeItem item s ≠ .fault f := by
  cases item with
  | op w =>
    cases hdec : decode w with
    | ok i => exact takeItem_op hdec s ▸ exec_ne_fault hd
    | error e =>
      rw [takeItem_op_error hdec]
      cases w with
      | rx frame => exact hd _
      | _ => exact nofun
  | writeConfig r v =>
    show writeConfig r v s ≠ _
    unfold writeConfig
    split_ifs <;> exact nofun
  | read r =>
    show readReg r s ≠ _
    unfold readReg
    split_ifs <;> exact nofun
  | _ => exact nofun

/-- Settles O40: the sequencer's step and the arrival of a frame answer a next state, and nothing else can fault. -/
theorem noFaultFromLegal : Obligations.NoFaultFromLegal := by
  intro s f h
  obtain he | ⟨item, rest, -, -, he⟩ := step_cases s <;> rw [he]
  · obtain ⟨t, ht⟩ := tick_next_of_inv h
    rw [ht]
    exact nofun
  · refine takeItem_ne_fault fun bs => ?_
    obtain ⟨t, ht⟩ := drain_next_of_inv (inv_port h rest) bs
    rw [ht]
    exact nofun

end Sys2Proof.Machine
end

section
/-! What an exchange writes: the loop form of `execute` (R150) and the sequencer's step change the same registers. -/

namespace Sys2Proof.Machine

open Sys2Proof.Claims

/-- `t` is `s` but for the registers that an exchange writes. -/
def ExchangeOnly (s t : State) : Prop :=
  t = { s with
    crc := t.crc, rxbuf := t.rxbuf, rxlen := t.rxlen, rxneed := t.rxneed, result := t.result, resultLen := t.resultLen
    seq := t.seq, fails := t.fails, done := t.done, fatal := t.fatal, lastFault := t.lastFault, excCode := t.excCode
    fatalCause := t.fatalCause, tp := t.tp }

theorem ExchangeOnly.trans {s t u : State} (h : ExchangeOnly s t) (h' : ExchangeOnly t u) : ExchangeOnly s u :=
  Eq.trans h' (by rw [show t = _ from h])

theorem ExchangeOnly.port {s t : State} (h : ExchangeOnly s t) : t.port = s.port := by rw [show t = _ from h]

theorem ExchangeOnly.firstWriteDone {s t : State} (h : ExchangeOnly s t) : t.firstWriteDone = s.firstWriteDone := by
  rw [show t = _ from h]

theorem exchangeOnly_attempt (frame : List Byte) (fn : Byte) (m : Mode) (k : Word) (s : State) :
    ExchangeOnly s (attempt frame fn m k s).2 := by
  unfold ExchangeOnly
  rw [attempt_frame]

theorem exchangeOnly_failAttempt (f : Failure) (s : State) : ExchangeOnly s (failAttempt f s) := by
  unfold ExchangeOnly
  rw [failAttempt_frame]

theorem exchangeOnly_afterStore (s : State) : ExchangeOnly s (afterStore s) := by
  unfold afterStore
  split
  · split <;> rfl
  · split <;> rfl

/-- The delay writes `FIRST_WRITE_DONE`; everything else the sequencer does is an exchange's. -/
theorem Ticked.exchangeOnly {s t : State} (h : Ticked s t) : (s.seq = .delay ∧ t = delayPhase s) ∨ ExchangeOnly s t := by
  cases h with
  | delayed hs => exact .inl ⟨hs, rfl⟩
  | sendFailed p => exact .inr (exchangeOnly_failAttempt _ { s with tp := p })
  | stored b p => exact .inr (exchangeOnly_afterStore (storeByte b { s with tp := p }))
  | timedOut p => exact .inr (exchangeOnly_failAttempt _ { s with tp := p })
  | rejected f => exact .inr (exchangeOnly_failAttempt _ { s with crc := crc16 s.rxFrame })
  | _ => exact .inr rfl

/-! ### The loop, attempt by attempt -/

/-- What the result of an attempt makes of the command (R150, R158, R165). -/
def conclude (r : AttemptResult × State) : State :=
  match r.1 with
  | .ok ws => completeCommand ws r.2
  | .failed f => failAttempt f r.2
  | .fatal => enterFatal .transportFatal r.2

theorem exchangeOnly_conclude (r : AttemptResult × State) : ExchangeOnly r.2 (conclude r) := by
  obtain ⟨r, s⟩ := r
  cases r with
  | ok ws => rfl
  | failed f => exact exchangeOnly_failAttempt f s
  | fatal => rfl

theorem attempt_seq (frame : List Byte) (fn : Byte) (m : Mode) (k : Word) (s : State) :
    (attempt frame fn m k s).2.seq = s.seq := by
  rw [attempt_frame]

/-- The loop goes on exactly while a concluded attempt leaves `SEQ` at `FLUSH`. -/
theorem executeLoop_succ (frame : List Byte) (fn : Byte) (m : Mode) (k : Word) (n : Nat) {s : State}
    (hs : s.seq = .flush) : executeLoop frame fn m k (n + 1) s =
      if (conclude (attempt frame fn m k s)).seq = .flush
      then executeLoop frame fn m k n (conclude (attempt frame fn m k s))
      else conclude (attempt frame fn m k s) := by
  have hseq := attempt_seq frame fn m k s
  rw [executeLoop]
  rcases ha : attempt frame fn m k s with ⟨r, t⟩
  rw [ha] at hseq
  have hflush : t.seq = .flush := hseq.trans hs
  cases r with
  | ok ws => rfl
  | fatal => rfl
  | failed f =>
    have hu : { recordFailure f t with seq := .flush } = recordFailure f t := by
      rw [recordFailure_frame, ← hflush]
    simp only [conclude, failAttempt, retryOrFatal]
    by_cases hle : (recordFailure f t).maxAttempts ≤ (recordFailure f t).fails
    · rw [if_pos hle, if_pos hle, if_neg (by simp)]
    · rw [if_neg hle, if_neg hle, hu, if_pos (by rw [← hu])]

/-- What every concluded attempt keeps, the loop keeps. -/
theorem executeLoop_keeps {P : State → Prop} {frame : List Byte} {fn : Byte} {m : Mode} {k : Word}
    (h : ∀ s, s.seq = .flush → P s → P (conclude (attempt frame fn m k s))) (n : Nat) {s : State} (hs : s.seq = .flush)
    (hp : P s) : P (executeLoop frame fn m k n s) := by
  induction n generalizing s with
  | zero => exact hp
  | succ n ih =>
    rw [executeLoop_succ frame fn m k n hs]
    split
    · next hflush => exact ih hflush (h s hs hp)
    · exact h s hs hp

theorem exchangeOnly_executeLoop (frame : List Byte) (fn : Byte) (m : Mode) (k : Word) (n : Nat) {s : State}
    (hs : s.seq = .flush) : ExchangeOnly s (executeLoop frame fn m k n s) :=
  executeLoop_keeps (P := ExchangeOnly s)
    (fun _ _ hu => hu.trans ((exchangeOnly_attempt ..).trans (exchangeOnly_conclude _))) n hs rfl

/-- The loop of `execute` starts in `FLUSH`, the delay behind it. -/
theorem prepareExecute_eq (fn : Byte) (p : List Byte) (m : Mode) (k : Word) (s : State) :
    prepareExecute fn p m k s = { startRequest fn p m k s with
      firstWriteDone := s.firstWriteDone || writeClass fn, seq := .flush } := by
  unfold prepareExecute takeDelay delayPhase
  rw [startRequest_seq]
  cases hw : writeClass fn <;> cases hf : s.firstWriteDone <;> simp [startRequest, clearForCommand, hw, hf]

theorem prepareExecute_seq (fn : Byte) (p : List Byte) (m : Mode) (k : Word) (s : State) :
    (prepareExecute fn p m k s).seq = .flush := by rw [prepareExecute_eq]

theorem exchangeOnly_execute (fn : Byte) (p : List Byte) (m : Mode) (k : Word) (s : State) :
    ExchangeOnly (prepareExecute fn p m k s) (execute fn p m k s) :=
  exchangeOnly_executeLoop _ fn m k _ (prepareExecute_seq fn p m k s)

end Sys2Proof.Machine
end

section
/-! Rules of the whole machine, step by step (R13, R14, R18, R22, R57, R151, R153, R189, R210). -/

namespace Sys2Proof.Machine

open Sys2Proof.Claims

theorem tick_port {s t : State} (h : tick s = .next t) : t.port = s.port := by
  obtain ⟨-, rfl⟩ | he := (ticked_tick h).exchangeOnly
  · rfl
  · exact he.port

/-- Settles O5: the request waits, and the sequencer does not look at the port. -/
theorem stepIsSequencer : Obligations.StepIsSequencer := by
  intro s h
  have hstep : step s = tick s := by
    obtain hnil | ⟨hb, item, rest, hport, hw⟩ := h
    · exact step_of_port_nil hnil
    · exact step_of_waiting hport hb hw
  exact ⟨hstep, fun t ht => tick_port (hstep ▸ ht)⟩

/-- Settles O39: reset never waits. -/
theorem resetStep : Obligations.ResetStep := fun s _ hport => step_of_taken (s := s) hport (.inr rfl)

/-- Settles O28: of all that a step can do only `DELAY` and the delay of `execute` write the flag, and they set it. -/
theorem delayOnce : Obligations.DelayOnce := by
  refine ⟨fun s hs => tick_of_delay hs, fun s t hnr hf h => ?_⟩
  refine step_keeps (P := fun u => u.firstWriteDone = true) hnr h hf (fun _ _ _ _ _ hu => hu) (fun u v hu hv => ?_)
    fun _ q v hact => ?_
  · obtain ⟨-, rfl⟩ | he := hv.exchangeOnly
    · rfl
    · exact he.firstWriteDone.trans hu
  · cases hact with
    | config r => cases r <;> exact hf
    | attempted frame fn m k =>
      exact (exchangeOnly_attempt frame fn m k { s with port := q }).firstWriteDone.trans hf
    | executed fn p m k =>
      have hprep : (prepareExecute fn p m k { s with port := q }).firstWriteDone = true := by
        rw [prepareExecute_eq]
        exact Bool.or_eq_true_iff.2 (.inl hf)
      exact (exchangeOnly_execute fn p m k { s with port := q }).firstWriteDone.trans hprep
    | _ => exact hf

/-- The record that `FATAL` leaves to the host. -/
structure SameFatalRecord (s t : State) : Prop where
  seq : t.seq = .fatal
  fatal : t.fatal = s.fatal
  fatalCause : t.fatalCause = s.fatalCause
  fails : t.fails = s.fails
  lastFault : t.lastFault = s.lastFault
  excCode : t.excCode = s.excCode
  done : t.done = s.done
  resultLen : t.resultLen = s.resultLen

/-- Settles O35: in `FATAL` the sequencer rests and the host's acts of `IDLE` are not taken. -/
theorem fatalIsSticky : Obligations.FatalIsSticky := by
  intro s t hs hnr h
  have hkept : SameFatalRecord s t := by
    refine step_keeps (P := SameFatalRecord s) hnr h ⟨hs, rfl, rfl, rfl, rfl, rfl, rfl, rfl⟩
      (fun _ _ _ _ _ hu => ⟨hu.1, hu.2, hu.3, hu.4, hu.5, hu.6, hu.7, hu.8⟩) (fun u v hu hv => ?_) fun hi => ?_
    · rwa [hv.eq_of_not_busy ((busy_eq_false_iff u).2 (.inr hu.seq))]
    · exact absurd (hs.symm.trans hi) (by decide)
  exact ⟨hkept.1, hkept.2, hkept.3, hkept.4, hkept.5, hkept.6, hkept.7, hkept.8⟩

/-- The registers that a request latches, its frame, and the configuration. -/
structure SameRequest (s t : State) : Prop where
  txbuf : t.txbuf = s.txbuf
  txlen : t.txlen = s.txlen
  reqFn : t.reqFn = s.reqFn
  reqMode : t.reqMode = s.reqMode
  reqCount : t.reqCount = s.reqCount
  devAddr : t.devAddr = s.devAddr
  maxAttempts : t.maxAttempts = s.maxAttempts
  rxTimeout : t.rxTimeout = s.rxTimeout
  writeDelay : t.writeDelay = s.writeDelay

theorem SameRequest.refl (s : State) : SameRequest s s := ⟨rfl, rfl, rfl, rfl, rfl, rfl, rfl, rfl, rfl⟩

theorem SameRequest.exchange {s t u : State} (h : SameRequest s t) (hu : ExchangeOnly t u) : SameRequest s u := by
  rw [show u = _ from hu]
  exact ⟨h.1, h.2, h.3, h.4, h.5, h.6, h.7, h.8, h.9⟩

theorem SameRequest.ticked {s t u : State} (h : SameRequest s t) (hu : Ticked t u) : SameRequest s u := by
  obtain ⟨-, rfl⟩ | he := hu.exchangeOnly
  · exact ⟨h.1, h.2, h.3, h.4, h.5, h.6, h.7, h.8, h.9⟩
  · exact h.exchange he

/-- Settles O41: an exchange writes none of these registers, and in progress the host cannot. -/
theorem requestIsLatched : Obligations.RequestIsLatched := by
  intro s t hb hnr h
  have hkept : SameRequest s t := by
    refine step_keeps (P := SameRequest s) hnr h (.refl s)
      (fun _ _ _ _ _ hu => ⟨hu.1, hu.2, hu.3, hu.4, hu.5, hu.6, hu.7, hu.8, hu.9⟩) (fun _ _ hu hv => hu.ticked hv)
      fun hi => ?_
    exact absurd hi ((busy_iff s).1 hb).1
  exact ⟨hkept.1, hkept.2, hkept.3, hkept.4, hkept.5, hkept.6, hkept.7, hkept.8, hkept.9⟩

/-- `RESULT` is as it was in `s`, or a command has ended with `DONE = 1`. -/
def ResultOrDone (s t : State) : Prop := t.result = s.result ∨ (t.done = true ∧ t.seq = .idle)

theorem failAttempt_result (f : Failure) (s : State) : (failAttempt f s).result = s.result := by
  rw [failAttempt_frame]

theorem afterStore_result (s : State) : (afterStore s).result = s.result := by
  unfold afterStore
  split
  · split <;> rfl
  · split <;> rfl

theorem ResultOrDone.ticked {s t u : State} (h : ResultOrDone s t) (hu : Ticked t u) : ResultOrDone s u := by
  obtain h | ⟨hdone, hi⟩ := h
  · cases hu with
    | completed ws => exact .inr ⟨rfl, rfl⟩
    | sendFailed p => exact .inl ((failAttempt_result _ _).trans h)
    | timedOut p => exact .inl ((failAttempt_result _ _).trans h)
    | rejected f => exact .inl ((failAttempt_result _ _).trans h)
    | stored b p => exact .inl ((afterStore_result _).trans h)
    | _ => exact .inl h
  · rw [hu.eq_of_not_busy ((busy_eq_false_iff t).2 (.inl hi))]
    exact .inr ⟨hdone, hi⟩

theorem attempt_result (frame : List Byte) (fn : Byte) (m : Mode) (k : Word) (s : State) :
    (attempt frame fn m k s).2.result = s.result := by
  rw [attempt_frame]

theorem resultOrDone_conclude {s : State} {r : AttemptResult × State} (h : r.2.result = s.result) :
    ResultOrDone s (conclude r) := by
  obtain ⟨r, t⟩ := r
  cases r with
  | ok ws => exact .inr ⟨rfl, rfl⟩
  | failed f => exact .inl ((failAttempt_result f t).trans h)
  | fatal => exact .inl h

/-- A concluded attempt that begins in `FLUSH` keeps `RESULT` or completes the command. -/
theorem ResultOrDone.conclude_attempt {s t : State} (h : ResultOrDone s t) (hs : t.seq = .flush) (frame : List Byte)
    (fn : Byte) (m : Mode) (k : Word) : ResultOrDone s (conclude (attempt frame fn m k t)) :=
  resultOrDone_conclude ((attempt_result frame fn m k t).trans
    (h.resolve_right fun hi => absurd (hs.symm.trans hi.2) (by decide)))

/-- Settles O42: `RESULT` is written only where a command is completed, in the phase form and in the loop form. -/
theorem resultOnlyWithDone : Obligations.ResultOnlyWithDone := by
  intro s t hnr h hne
  have hkept : ResultOrDone s t := by
    refine step_keeps (P := ResultOrDone s) hnr h (.inl rfl) (fun _ _ _ _ _ hu => hu) (fun _ _ hu hv => hu.ticked hv)
      fun _ q v hact => ?_
    cases hact with
    | config r => cases r <;> exact .inl rfl
    | usage c => exact .inl rfl
    | accepted fn p k i => exact .inl rfl
    | attempted frame fn m k => exact .inl (attempt_result frame fn m k { s with port := q })
    | executed fn p m k =>
      have hprep : (prepareExecute fn p m k { s with port := q }).result = s.result := by rw [prepareExecute_eq]; rfl
      exact executeLoop_keeps (P := ResultOrDone s) (fun u hu hp => hp.conclude_attempt hu _ _ _ _) _
        (prepareExecute_seq fn p m k { s with port := q }) (.inl hprep)
  exact hkept.resolve_left hne

/-- Settles O43: from a command in progress the sequencer reaches `IDLE` only with `DONE`; the invariant gives the other
flags. -/
theorem oneFlagAtTheEnd : Obligations.OneFlagAtTheEnd := by
  intro s t h hb hnr hstep hend
  have hinv : t.Inv := stepKeepsInvariant s t h hstep
  obtain ⟨hidle, hnfatal⟩ := (busy_iff s).1 hb
  have hkept : t.seq = .idle → t.done = true := by
    refine step_keeps (P := fun u => u.seq = .idle → u.done = true) hnr hstep (fun hi => absurd hi hidle)
      (fun _ _ _ _ _ hu => hu) (fun u v hu hv => ?_) fun hi => absurd hi hidle
    cases hv with
    | rest => exact hu
    | completed ws => exact fun _ => rfl
    | sendFailed p | timedOut p | rejected f =>
      intro hi
      obtain hs | hs := failAttempt_seq _ _ <;> exact absurd (hs.symm.trans hi) (by decide)
    | stored b p hr =>
      rw [afterStore_storeByte (s := { u with tp := p }) hr]
      intro hi
      simp only at hi
      split_ifs at hi
    | _ => exact nofun
  unfold State.ended
  obtain hi | hf := (busy_eq_false_iff t).1 hend
  · have hdone := hkept hi
    have hfatal : t.fatal = false := Bool.eq_false_iff.2 fun hf => absurd (hi.symm.trans (hinv.fatal_iff.1 hf)) (by decide)
    simp [hdone, hinv.done_usage hdone, hfatal]
  · obtain ⟨hdone, husage, -⟩ := hinv.unfinished (by rw [hf]; decide)
    simp [hdone, husage, hinv.fatal_iff.2 hf]

end Sys2Proof.Machine
end

section
/-! `CHECK` and the transitions of `SEQ` (R157 to R159, R186), and what is in `CRC` (R10, R103). -/

namespace Sys2Proof.Machine

open Sys2Proof.Claims

theorem checkPhase_of_ok {s : State} {ws : List Word} (h : s.verdict = .ok ws) :
    checkPhase s = completeCommand ws { s with crc := crc16 s.rxFrame } := by rw [checkPhase, h, afterCheck]

theorem checkPhase_of_frameFault {s : State} {c : Cause} (h : s.verdict = .frameFault c) :
    checkPhase s = failAttempt (.plain c) { s with crc := crc16 s.rxFrame } := by rw [checkPhase, h, afterCheck]

theorem checkPhase_of_exception {s : State} {code : Byte} (h : s.verdict = .deviceException code) :
    checkPhase s = failAttempt (.exception code) { s with crc := crc16 s.rxFrame } := by rw [checkPhase, h, afterCheck]

/-- `RESULT[0:RESULT_LEN]` of a completed command is its words: at most 127 fit. -/
theorem completeCommand_resultList {s : State} (h : Memory.wf Config.resultMax s.result = true) {ws : List Word}
    (hn : ws.length ≤ 127) : (completeCommand ws s).resultList = ws := by
  have hcap : 0 + ws.length ≤ Config.resultMax := by
    simp only [Config.resultMax]
    omega
  exact readList_writeList ws h hcap

/-- `RESULT` beyond the words of a completed command is unchanged. -/
theorem read_result_completeCommand (ws : List Word) (s : State) {n : Nat} (hn : ws.length ≤ n) :
    Memory.read (completeCommand ws s).result n = Memory.read s.result n := by
  rw [completeCommand_result, read_writeList_ge ws (by omega)]

/-- Settles O32: the verdict's words complete the command. -/
theorem acceptedFrameCompletes : Obligations.AcceptedFrameCompletes := by
  intro s ws h hs hv
  refine ⟨_, (tick_of_check hs).trans (congrArg _ (checkPhase_of_ok hv)), ?_, rfl, fun n hn => ?_⟩
  · exact completeCommand_resultList h.result_wf (resultWords_length _ _ _ _ _ _ hv)
  · exact read_result_completeCommand ws _ hn

/-- A failed attempt in `CHECK`, where `CRC` takes the CRC of the frame. -/
theorem failedWith_failAttempt_crc (c : Cause) (s : State) (k : Word) :
    FailedWith c s (failAttempt (.plain c) { s with crc := k }) :=
  failedWith_failAttempt c { s with crc := k } s.tp

/-- The code of a device exception is byte 2 of the frame (R133, R186). -/
theorem code_of_validate {dev : Byte} {rx : List Byte} {fn : Byte} {m : Mode} {k : Word} {code : Byte}
    (h : validate dev rx fn m k = .deviceException code) : code = byteAt rx 2 := by
  unfold validate at h
  split_ifs at h
  exact (Verdict.deviceException.inj h).symm

/-- The causes that `validate` gives (R133). -/
theorem cause_of_validate {dev : Byte} {rx : List Byte} {fn : Byte} {m : Mode} {k : Word} {c : Cause}
    (h : validate dev rx fn m k = .frameFault c) : c ∈ [Cause.frameCrc, .frameAddress, .frameFunction, .frameLength] := by
  unfold validate at h
  split_ifs at h <;> cases h <;> simp

/-- Settles O33: the verdict is one failed attempt; the response has at least 5 bytes, so byte 2 of the frame stands in
`RXBUF[2]`. -/
theorem rejectedFrameIsOneFailedAttempt : Obligations.RejectedFrameIsOneFailedAttempt := by
  intro s hs h
  refine ⟨fun c hv => ?_, fun code hv => ?_⟩
  · exact ⟨_, (tick_of_check hs).trans (congrArg _ (checkPhase_of_frameFault hv)), failedWith_failAttempt_crc c s _,
      (failAttempt_tp_crc _ _).1⟩
  · have hneed : 2 < s.rxneed := by
      have hle := rxNeed_le (Memory.read s.rxbuf 1) (Memory.read s.rxbuf 2) s.reqMode
      have := h.need (.inr hs)
      omega
    exact ⟨_, (tick_of_check hs).trans (congrArg _ (checkPhase_of_exception hv)),
      (code_of_validate hv).trans (byteAt_readList s.rxbuf s.rxneed 2 hneed),
      failedWith_failAttempt_crc .deviceException { s with excCode := code } _, (failAttempt_tp_crc _ _).1⟩

/-- A rejected frame is a failed attempt with one of the five causes of validation. -/
theorem failedWith_of_rejected {s : State} {f : Failure} (h : s.verdict.result = .failed f) :
    ∃ c x, c ∈ [Cause.frameCrc, .frameAddress, .frameFunction, .frameLength, .deviceException] ∧
      FailedWith c { s with excCode := x } (failAttempt f { s with crc := crc16 s.rxFrame }) := by
  cases hv : s.verdict with
  | ok ws =>
    rw [hv] at h
    cases h
  | frameFault c =>
    rw [hv] at h
    cases h
    exact ⟨c, s.excCode, List.mem_append_left [Cause.deviceException] (cause_of_validate hv),
      failedWith_failAttempt_crc c s _⟩
  | deviceException code =>
    rw [hv] at h
    cases h
    exact ⟨.deviceException, code, by simp, failedWith_failAttempt_crc .deviceException { s with excCode := code } _⟩

/-- Settles O34: the outcomes of the sequencer's step, phase by phase. -/
theorem sequencerTransitions : Obligations.SequencerTransitions := by
  intro s t h ht
  have hticked := ticked_tick ht
  cases hs : s.seq
  case idle => exact hticked.eq_of_not_busy ((busy_eq_false_iff s).2 (.inl hs))
  case fatal => exact hticked.eq_of_not_busy ((busy_eq_false_iff s).2 (.inr hs))
  case delay =>
    rw [tick_of_delay hs] at ht
    cases ht
    exact ⟨rfl, rfl⟩
  case flush =>
    rw [tick_of_flush hs] at ht
    cases ht
    exact ⟨rfl, rfl⟩
  case send =>
    rw [tick_of_send hs] at ht
    cases ht
    obtain he | he | he := sendPhase_cases s <;> rw [he]
    · exact .inl rfl
    · exact .inr (.inl (failedWith_failAttempt _ s _))
    · exact .inr (.inr (transportFatal_enterFatal s _))
  case recvHead =>
    have hr : s.receiving = true := (receiving_iff s).2 (.inl hs)
    have hlt : s.rxlen < 3 := h.head_len hs
    rw [tick_of_receiving hr] at ht
    obtain ⟨b, -, -, rfl⟩ | rfl | rfl := recvPhase_cases ht
    · rw [afterStore_storeByte (s := { s with tp := (Transport.recvByte s.tp).2 }) hr]
      by_cases hl : s.rxlen = 2
      · refine .inr (.inl ?_)
        simp only [hs, hl, if_true, and_self, true_and]
        exact rxNeed_le _ _ _
      · refine .inl ?_
        simp only [hs, hl, if_true, if_false, true_and]
        omega
    · exact .inr (.inr (.inl (failedWith_failAttempt _ s _)))
    · exact .inr (.inr (.inr (transportFatal_enterFatal s _)))
  case recvBody =>
    have hr : s.receiving = true := (receiving_iff s).2 (.inr hs)
    obtain ⟨-, hlt⟩ := h.body_len hs
    rw [tick_of_receiving hr] at ht
    obtain ⟨b, -, -, rfl⟩ | rfl | rfl := recvPhase_cases ht
    · rw [afterStore_storeByte (s := { s with tp := (Transport.recvByte s.tp).2 }) hr]
      by_cases hl : s.rxlen + 1 = s.rxneed
      · refine .inr (.inl ?_)
        simp [hs, hl]
      · refine .inl ?_
        simp only [hs, hl, reduceCtorEq, false_and, if_false, true_and]
        omega
    · exact .inr (.inr (.inl (failedWith_failAttempt _ s _)))
    · exact .inr (.inr (.inr (transportFatal_enterFatal s _)))
  case check =>
    rw [tick_of_check hs] at ht
    cases ht
    cases hv : s.verdict with
    | ok ws =>
      rw [checkPhase_of_ok hv]
      exact .inl ⟨rfl, rfl⟩
    | frameFault c =>
      rw [checkPhase_of_frameFault hv]
      exact .inr (failedWith_of_rejected (congrArg Verdict.result hv))
    | deviceException code =>
      rw [checkPhase_of_exception hv]
      exact .inr (failedWith_of_rejected (congrArg Verdict.result hv))

/-! ### `CRC` -/

/-- An accepted command leaves the CRC of its frame without the frame's own CRC. -/
theorem acceptCommand_crc {s : State} (h : s.Inv) (hi : s.seq = .idle) {fn : Byte} {a : Int} {vals : List Number}
    {p : List Byte} {k : Word} (ha : (acceptCommand fn a vals p k s).seq ≠ .idle) :
    (acceptCommand fn a vals p k s).crc =
      crc16 ((acceptCommand fn a vals p k s).txFrame.take ((acceptCommand fn a vals p k s).txlen - 2)) := by
  obtain ⟨hn, -⟩ | ⟨-, c, -, he⟩ | ⟨-, -, he⟩ := acceptCommand_cases fn a vals p k s
  · exact absurd hi hn
  · rw [he] at ha
    exact absurd hi ha
  · rw [he, txFrame_start fn p (modeOf fn) k h.txbuf_wf, startRequest_crc, startRequest_txlen, crcOfBuild]

theorem checkPhase_crc (s : State) : (checkPhase s).crc = crc16 s.rxFrame := by
  obtain ⟨ws, -, he⟩ | ⟨f, he⟩ := checkPhase_cases s <;> rw [he]
  · rfl
  · exact (failAttempt_tp_crc f _).2

theorem afterStore_crc (s : State) : (afterStore s).crc = s.crc := by
  unfold afterStore
  split
  · split <;> rfl
  · split <;> rfl

theorem Ticked.crc {s t : State} (h : Ticked s t) (hs : s.seq ≠ .check) : t.crc = s.crc := by
  cases h with
  | sendFailed p | timedOut p => exact (failAttempt_tp_crc _ _).2
  | stored b p => exact afterStore_crc _
  | completed ws hc => exact absurd hc hs
  | rejected f hc => exact absurd hc hs
  | _ => rfl

/-- Settles O27: acceptance and `CHECK` are the two writers of `CRC` among the sequencer's operations. -/
theorem crcAfterBuildAndCheck : Obligations.CrcAfterBuildAndCheck := by
  intro s t h
  refine ⟨fun a x k xs hi hbusy hexec => ?_, fun hs ht => ?_, fun hs ht => (ticked_tick ht).crc hs⟩
  · obtain he | he | he := hexec <;> cases he <;> exact acceptCommand_crc h hi hbusy
  · rw [tick_of_check hs] at ht
    cases ht
    exact checkPhase_crc s

end Sys2Proof.Machine
end

section
/-! `LAST_FAULT` and `EXC_CODE` are status only (R19, R139). -/

namespace Sys2Proof.Machine

open Sys2Proof.Claims

/-- `s` with another record of the last fault. -/
def withStatus (c : Cause) (x : Byte) (s : State) : State := { s with lastFault := c, excCode := x }

/-- The two states differ in the record of the last fault at most. -/
def SameButStatus (t' t : State) : Prop := { t' with lastFault := t.lastFault, excCode := t.excCode } = t

theorem sameButStatus_failAttempt (f : Failure) (c : Cause) (x : Byte) (s : State) :
    SameButStatus (failAttempt f (withStatus c x s)) (failAttempt f s) := by
  unfold SameButStatus
  obtain ⟨hle, he⟩ | ⟨hlt, he⟩ := failAttempt_cases f s
  · obtain ⟨-, he'⟩ | ⟨hlt, -⟩ := failAttempt_cases f (withStatus c x s)
    · rw [he, he', recordFailure_frame, recordFailure_frame f s]
      rfl
    · exact absurd hle (Nat.not_le.2 hlt)
  · obtain ⟨hle, -⟩ | ⟨-, he'⟩ := failAttempt_cases f (withStatus c x s)
    · exact absurd hle (Nat.not_le.2 hlt)
    · rw [he, he', recordFailure_frame, recordFailure_frame f s]
      rfl

theorem sameButStatus_afterStore (c : Cause) (x : Byte) (s : State) :
    SameButStatus (afterStore (withStatus c x s)) (afterStore s) := by
  unfold SameButStatus afterStore withStatus
  split
  · split <;> rfl
  · split <;> rfl

theorem sameButStatus_sendPhase (c : Cause) (x : Byte) (s : State) :
    SameButStatus (sendPhase (withStatus c x s)) (sendPhase s) := by
  have hcall : (withStatus c x s).tp.turn.answer = s.tp.turn.answer := rfl
  rw [sendPhase_eq, sendPhase_eq, hcall]
  cases s.tp.turn.answer with
  | ok => rfl
  | fault => exact sameButStatus_failAttempt _ c x { s with tp := (Transport.send s.txFrame s.tp).2 }
  | fatalFault => rfl

theorem sameButStatus_checkPhase (c : Cause) (x : Byte) (s : State) :
    SameButStatus (checkPhase (withStatus c x s)) (checkPhase s) := by
  have hverdict : (withStatus c x s).verdict = s.verdict := rfl
  rw [checkPhase, checkPhase, hverdict]
  cases s.verdict with
  | ok ws => rfl
  | frameFault e => exact sameButStatus_failAttempt _ c x { s with crc := crc16 s.rxFrame }
  | deviceException code => exact sameButStatus_failAttempt _ c x { s with crc := crc16 s.rxFrame }

theorem sameButStatus_recvPhase (c : Cause) (x : Byte) {s t : State} (h : recvPhase s = .next t) :
    ∃ t', recvPhase (withStatus c x s) = .next t' ∧ SameButStatus t' t := by
  have hcall : (Transport.recvByte (withStatus c x s).tp).1 = (Transport.recvByte s.tp).1 := rfl
  cases ha : (Transport.recvByte s.tp).1 <;> rw [ha] at hcall
  case byte b =>
    have hlt : s.rxlen < Config.rxbufMax := by
      simp only [recvPhase, ha, afterRecv] at h
      exact (receiveByte_eq h).1
    cases (recvPhase_of_byte hlt ha).symm.trans h
    exact ⟨_, recvPhase_of_byte (s := withStatus c x s) hlt hcall,
      sameButStatus_afterStore c x (storeByte b { s with tp := (Transport.recvByte s.tp).2 })⟩
  case timeout =>
    cases (recvPhase_of_timeout ha).symm.trans h
    exact ⟨_, recvPhase_of_timeout hcall,
      sameButStatus_failAttempt _ c x { s with tp := (Transport.recvByte s.tp).2 }⟩
  case fatalFault =>
    cases (recvPhase_of_fatalFault ha).symm.trans h
    exact ⟨_, recvPhase_of_fatalFault hcall, rfl⟩

/-- Settles O44: no phase looks at the two registers, and the counter decides after a failure. -/
theorem statusIsNotRead : Obligations.StatusIsNotRead := by
  intro s t c x h
  have hseq : (withStatus c x s).seq = s.seq := rfl
  show ∃ t', tick (withStatus c x s) = .next t' ∧ SameButStatus t' t
  cases hs : s.seq <;> rw [hs] at hseq <;> rw [tick, hs] at h <;> rw [tick, hseq]
  case recvHead | recvBody => exact sameButStatus_recvPhase c x h
  case send =>
    cases h
    exact ⟨_, rfl, sameButStatus_sendPhase c x s⟩
  case check =>
    cases h
    exact ⟨_, rfl, sameButStatus_checkPhase c x s⟩
  case idle | delay | flush | fatal =>
    cases h
    exact ⟨_, rfl, rfl⟩

end Sys2Proof.Machine
end

section
/-! The functions of the encoder and the decoder as rows (R111 to R113, R133 to R135; log 17). -/

namespace Sys2Proof.Machine

open Sys2Proof.Claims

/-- Settles O7: `crc_op = 0b11` has its own row, and the row is refused whatever the state. -/
theorem crcReservedRefused : Obligations.CrcReservedRefused := fun _ _ => ⟨rfl, rfl⟩

theorem exec_encRead (x y : Word) (s : State) : exec (.encRead x y) s = .next (setRet (.bytes (encRead x y)) s) := rfl

theorem exec_encWSingle (x y : Word) (s : State) :
    exec (.encWSingle x y) s = .next (setRet (.bytes (encWSingle x y)) s) := rfl

theorem exec_encWMulti (x : Word) (vs : List Word) (s : State) :
    exec (.encWMulti x vs) s = .next (setRet (.bytes (encWMulti x vs)) s) := rfl

theorem exec_validate (rx : List Byte) (fn : Byte) (m : Mode) (k : Word) (s : State) :
    exec (.validate rx fn m k) s = .next (setRet (.verdict (validate s.devAddr rx fn m k)) s) := rfl

/-- Settles O14: each field high byte first. -/
theorem encoderPayloads : Obligations.EncoderPayloads := by
  intro s x y vs
  refine ⟨?_, ?_, fun hn => ?_⟩
  · rw [exec_encRead, encRead_eq, setRet]
  · rw [exec_encWSingle, encWSingle_eq, setRet]
  · rw [exec_encWMulti, encWMulti_bytes x hn, setRet]

theorem byteOrFree_eq (rx : List Byte) (i : Nat) : byteOrFree rx i = byteAt rx i := by
  rw [byteOrFree, byteAt, List.getD_eq_getElem?_getD]

theorem buildFrame_of_long (dev fn : Byte) {p : List Byte} (hp : 259 < p.length) :
    buildFrame dev fn p = Config.unstatedFrame dev fn p := if_neg (Nat.not_le.2 hp)

theorem encWMulti_of_long (x : Word) {vs : List Word} (hn : 127 < vs.length) :
    encWMulti x vs = Config.unstatedPayload x vs := if_neg (Nat.not_le.2 hn)

/-- Settles O15: outside the domain the value is the free one; `validate` names its bytes by index. -/
theorem outsideDomainRuns : Obligations.OutsideDomainRuns := by
  intro s fn p rx x k vs m
  refine ⟨fun hp => ?_, fun hn => ?_, _, exec_validate rx fn m k s, fun code hv => ?_, fun ws hv hm => ?_,
    fun ws hv hm => ?_⟩
  · rw [exec_buildFrame, buildFrame_of_long _ _ hp, setRet]
  · rw [exec_encWMulti, encWMulti_of_long x hn, setRet]
  · rw [code_of_validate hv, byteOrFree_eq]
  · obtain ⟨-, -, -, -, rfl⟩ := validate_eq_ok_iff.1 hv
    subst hm
    simp only [resultWords, byteOrFree_eq, u16be]
  · obtain ⟨-, -, -, -, rfl⟩ := validate_eq_ok_iff.1 hv
    subst hm
    simp only [resultWords, byteOrFree_eq, u16be]

/-- A sequence with CRC 0 has two bytes: none leaves the seed, and one byte alone never clears it. -/
theorem two_bytes_of_crc16_eq_zero {rx : List Byte} (h : crc16 rx = 0) : ∃ x0 x1 tail, rx = x0 :: x1 :: tail := by
  match rx with
  | [] => exact absurd h (by decide)
  | [b] => exact absurd ((isValid_iff [b]).2 h) (by simp [isValid_singleton])
  | x0 :: x1 :: tail => exact ⟨x0, x1, tail, rfl⟩

/-- Settles O17: with the bytes read at their indexes, each clause is one branch of R133. -/
theorem validateInOrder : Obligations.ValidateInOrder := by
  intro s rx fn m k
  refine ⟨_, exec_validate rx fn m k s, fun hcrc => if_pos hcrc, fun hcrc => ?_⟩
  obtain ⟨x0, x1, tail, rfl⟩ := two_bytes_of_crc16_eq_zero hcrc
  have h0 : byteAt (x0 :: x1 :: tail) 0 = x0 := rfl
  have h1 : byteAt (x0 :: x1 :: tail) 1 = x1 := rfl
  unfold validate
  rw [if_neg (not_not.2 hcrc), h0, h1]
  refine ⟨x0, x1, rfl, rfl, fun h => if_pos h, fun hd hf h7 => ?_, fun hd hf hm => ?_, fun x2 h2 => ?_⟩
  · rw [if_neg (not_not.2 hd), if_pos hf, bit7, h7, if_neg Bool.false_ne_true]
  · rw [if_neg (not_not.2 hd), if_neg (not_not.2 hf), if_neg (fun h => by simp [hm] at h)]
  · have hx2 : byteAt (x0 :: x1 :: tail) 2 = x2 := by
      rw [byteAt, List.getD_eq_getElem?_getD, h2, Option.getD_some]
    rw [hx2]
    refine ⟨fun hd hf h7 => ?_, fun hd hf hm hne => ?_, fun hd hf hm heq => ?_⟩
    · rw [if_neg (not_not.2 hd), if_pos hf, bit7, if_pos h7]
    · rw [if_neg (not_not.2 hd), if_neg (not_not.2 hf), if_pos ⟨hm, hne⟩]
    · rw [if_neg (not_not.2 hd), if_neg (not_not.2 hf), if_neg (fun h => h.2 heq)]

end Sys2Proof.Machine
end

section
/-! What the host may do and when (R22, R54, R151, R216, D29). -/

namespace Sys2Proof.Machine

open Sys2Proof.Claims

theorem acceptCommand_of_not_idle {s : State} (hs : s.seq ≠ .idle) (fn : Byte) (a : Int) (vals : List Number)
    (p : List Byte) (k : Word) : acceptCommand fn a vals p k s = s := if_neg hs

/-- Settles O26: each of the six looks for `IDLE` first. -/
theorem commandsOnlyInIdle : Obligations.CommandsOnlyInIdle := by
  intro s hs fn a x k xs m p
  exact ⟨congrArg _ (acceptCommand_of_not_idle hs ..), congrArg _ (acceptCommand_of_not_idle hs ..),
    congrArg _ (acceptCommand_of_not_idle hs ..), congrArg _ (if_neg hs), congrArg _ (if_neg hs), congrArg _ (if_neg hs)⟩

/-- A configuration write does not wait. -/
theorem step_of_writeConfig {s : State} {r : ConfigReg} {v : Nat} {rest : List PortItem}
    (h : s.port = .writeConfig r v :: rest) : step s = writeConfig r v { s with port := rest } :=
  step_of_taken h (.inr rfl)

theorem step_of_legalConfig {s : State} {r : ConfigReg} {v : Nat} {rest : List PortItem}
    (h : s.port = .writeConfig r v :: rest) (hi : s.seq = .idle) (hv : legalConfig r v = true) :
    step s = .next (setConfig r v { s with port := rest }) := by
  rw [step_of_writeConfig h, writeConfig, if_neg (not_not.2 hi), if_pos hv]

theorem step_of_illegalConfig {s : State} {r : ConfigReg} {v : Nat} {rest : List PortItem}
    (h : s.port = .writeConfig r v :: rest) (hi : s.seq = .idle) (hv : legalConfig r v = false) :
    step s = .refused .illegalConfig := by
  rw [step_of_writeConfig h, writeConfig, if_neg (not_not.2 hi), if_neg (by simp [hv])]

/-- Settles O46: `IDLE` is looked at first, then the value. -/
theorem configurationWrites : Obligations.ConfigurationWrites := by
  intro s r v rest hport
  refine ⟨fun hs => (step_of_writeConfig hport).trans (if_pos hs), ?_, ?_, ?_, ?_, ?_, ?_, ?_⟩ <;> rintro hi rfl
  · exact fun hv => step_of_illegalConfig hport hi (decide_eq_false (by omega))
  · exact fun hv => step_of_legalConfig hport hi (decide_eq_true hv)
  · exact fun hv => step_of_illegalConfig hport hi (decide_eq_false (by omega))
  · exact fun hv => step_of_illegalConfig hport hi (decide_eq_false (Nat.not_le.2 hv))
  · exact fun hv => step_of_legalConfig hport hi (decide_eq_true hv)
  · exact fun hv => step_of_legalConfig hport hi (decide_eq_true hv)
  · exact step_of_legalConfig hport hi rfl

/-- A register read does not wait. -/
theorem step_of_read {s : State} {r : HostReg} {rest : List PortItem} (h : s.port = .read r :: rest) :
    step s = readReg r { s with port := rest } :=
  step_of_taken h (.inr rfl)

theorem readReg_of_ready {r : HostReg} {s : State} (h : r = .result → s.done = true) :
    readReg r s = .next (setRet (regValue r s) s) := by
  refine if_neg fun ⟨hr, hd⟩ => ?_
  rw [h hr] at hd
  cases hd

theorem busy_eq_decide (s : State) : s.busy = decide (s.seq ≠ .idle ∧ s.seq ≠ .fatal) := by
  rw [State.busy, Bool.decide_and]

/-- Settles O47: a read answers the register, a status register by its code. -/
theorem hostReads : Obligations.HostReads := by
  intro s r rest hport
  rw [step_of_read hport]
  refine ⟨fun hr hd => if_pos ⟨hr, hd⟩, fun h => ?_⟩
  rw [readReg_of_ready (s := { s with port := rest }) h]
  cases r with
  | busy => exact congrArg (fun b => Host.Outcome.next { s with port := rest, ret := .bool b }) (busy_eq_decide s)
  | lastFault => cases s.lastFault <;> simp [setRet, regValue, Cause.code]
  | fatalCause => cases s.fatalCause <;> simp [setRet, regValue, FatalCause.code]
  | _ => rfl

end Sys2Proof.Machine
end

section
/-! Frames on the wire (R24, R43, R60 to R68, R155; logs 11, 13). -/

namespace Sys2Proof.Machine

open Sys2Proof.Claims

/-- In phase `SEND` a legal state's frame is a request row's (R152). -/
theorem decodeRequest_txFrame {s : State} (h : s.Inv) (hb : s.busy = true) :
    ∃ i : Instr, i.wf = true ∧ decodeRequest s.txFrame = .ok i := by
  have hholds := h.busy_frame hb
  unfold State.holdsRequest at hholds
  cases hdec : decodeRequest s.txFrame with
  | ok i =>
    simp only [hdec, Bool.and_eq_true] at hholds
    obtain ⟨⟨hwf, -⟩, -⟩ := hholds
    exact ⟨i, hwf, rfl⟩
  | error e =>
    rw [hdec] at hholds
    cases hholds

/-- Settles O49: `TXBUF` decodes to a row, the encoder gives `TXBUF` back, and the row runs as its emission. -/
theorem emittedFrameIsRow : Obligations.EmittedFrameIsRow := by
  intro s h hs
  obtain ⟨i, hwf, hdec⟩ := decodeRequest_txFrame h ((busy_iff s).2 (by simp [hs]))
  have henc := encode_of_decodeRequest hdec
  refine ⟨i, hwf, henc, ?_⟩
  rw [exec_of_encode_tx henc, emitFrame_of_holds hs rfl, tick_of_send hs]

/-- Settles O48: a row is emitted just when it stands in `TXBUF`; a frame that is no row's never does. -/
theorem requestEmission : Obligations.RequestEmission := by
  refine ⟨fun s i frame henc => ⟨fun hs hf => ?_, fun hnot => ?_⟩, fun s frame rest e h hport hdec => ?_⟩
  · obtain ⟨t, ht, hbus, hok, -, -⟩ := sendPhase_effect s hs
    refine ⟨t, ?_, ht, hf ▸ hbus, hok⟩
    rw [exec_of_encode_tx henc, emitFrame_of_holds hs hf, ← tick_of_send hs, ht]
  · rw [exec_of_encode_tx henc, emitFrame_of_not hnot]
  · have hnot : s.seq ≠ .send ∨ s.txFrame ≠ frame := by
      by_contra hboth
      obtain ⟨hs, rfl⟩ := not_or.1 hboth |>.imp not_not.1 not_not.1
      obtain ⟨i, -, hok⟩ := decodeRequest_txFrame h ((busy_iff s).2 (by simp [hs]))
      cases hdec.symm.trans hok
    rw [step_of_taken hport (.inr rfl), takeItem_tx, emitFrame_of_not (s := { s with port := rest }) hnot]

theorem lineDelivers_of_not_receiving {s : State} (h : s.receiving = false) (bs : List Byte) :
    lineDelivers bs s = .next (setInBuf (s.tp.inBuf ++ bs) s) := drain_idle h _

/-- Settles O50: nothing is taken from the queue while no response is collected. -/
theorem strayResponse : Obligations.StrayResponse := by
  refine ⟨fun s i frame henc hr => ?_, fun s frame rest e hr hport _ => ?_⟩
  · rw [exec_of_encode_rx henc, lineDelivers_of_not_receiving hr, setInBuf]
  · rw [step_of_taken hport (.inr rfl), takeItem_rx, lineDelivers_of_not_receiving (s := { s with port := rest }) hr,
      setInBuf]

end Sys2Proof.Machine
end

section
/-! Runs of the machine, and the bound on a command's steps (R16, R169). -/

namespace Sys2Proof.Machine

theorem run_zero (s : State) : core.run 0 s = .next s := rfl

theorem run_succ_of_step {s t : State} (h : step s = .next t) (k : Nat) : core.run (k + 1) s = core.run k t := by
  have hcore : core.step s = .next t := h
  simp only [Host.Core.run, hcore]

/-- A run that does not stop makes its first step. -/
theorem step_of_run_succ {k : Nat} {s t : State} (h : core.run (k + 1) s = .next t) :
    ∃ u, step s = .next u ∧ core.run k u = .next t := by
  cases hstep : step s with
  | next u => exact ⟨u, rfl, run_succ_of_step hstep k ▸ h⟩
  | fault f =>
    have hcore : core.step s = .fault f := hstep
    simp only [Host.Core.run, hcore] at h
    cases h
  | refused r =>
    have hcore : core.step s = .refused r := hstep
    simp only [Host.Core.run, hcore] at h
    cases h

theorem run_add {k : Nat} {s t : State} (h : core.run k s = .next t) (l : Nat) : core.run (k + l) s = core.run l t := by
  induction k generalizing s with
  | zero =>
    cases (run_zero s).symm.trans h
    rw [Nat.zero_add]
  | succ k ih =>
    obtain ⟨u, hstep, hrest⟩ := step_of_run_succ h
    rw [Nat.add_right_comm, run_succ_of_step hstep, ih hrest]

/-- Some number of steps leads from `s` to `t`. -/
def Reaches (s t : State) : Prop := ∃ k, core.run k s = .next t

theorem Reaches.refl (s : State) : Reaches s s := ⟨0, run_zero s⟩

theorem Reaches.trans {s t u : State} (h : Reaches s t) (h' : Reaches t u) : Reaches s u := by
  obtain ⟨k, hk⟩ := h
  obtain ⟨l, hl⟩ := h'
  exact ⟨k + l, (run_add hk l).trans hl⟩

theorem Reaches.of_step {s t : State} (h : step s = .next t) : Reaches s t := ⟨1, run_succ_of_step h 0⟩

/-- With nothing at the port the machine's step is the sequencer's. -/
theorem Reaches.of_tick {s t : State} (hport : s.port = []) (h : tick s = .next t) : Reaches s t :=
  .of_step ((step_of_port_nil hport).trans h)

/-- The steps a command in progress has left at most: 263 for an attempt, of which the flush, the send and the check take one
each and the response at most 260, and one for the delay. -/
def stepsLeft (s : State) : Nat :=
  match s.seq with
  | .idle | .fatal => 0
  | .delay => 1 + 263 * (s.maxAttempts - s.fails)
  | .flush => 263 * (s.maxAttempts - s.fails)
  | .send => 263 * (s.maxAttempts - s.fails) - 1
  | .recvHead | .recvBody => 263 * (s.maxAttempts - s.fails) - 2 - s.rxlen
  | .check => 263 * (s.maxAttempts - s.fails) - 262

theorem stepsLeft_of_receiving {s : State} (h : s.receiving = true) :
    stepsLeft s = 263 * (s.maxAttempts - s.fails) - 2 - s.rxlen := by
  obtain h | h := (receiving_iff s).1 h <;> rw [stepsLeft, h]

theorem stepsLeft_le (s : State) : stepsLeft s ≤ 1 + 263 * (s.maxAttempts - s.fails) := by
  unfold stepsLeft
  split <;> omega

/-- A failed attempt uses up the steps of one attempt. -/
theorem stepsLeft_failAttempt (f : Failure) {s : State} (h : s.fails < s.maxAttempts) :
    stepsLeft (failAttempt f s) + 263 ≤ 263 * (s.maxAttempts - s.fails) := by
  obtain ⟨-, he⟩ | ⟨-, he⟩ := failAttempt_cases f s <;> rw [he, recordFailure_frame]
  · simp only [stepsLeft, enterFatal_seq]
    omega
  · simp only [stepsLeft]
    omega

/-- A byte received uses up one step. -/
theorem stepsLeft_stored {s : State} (h : s.fails < s.maxAttempts) (hr : s.receiving = true) (hl : s.rxlen < 260)
    (b : Byte) (p : Transport) : stepsLeft (afterStore (storeByte b { s with tp := p })) < stepsLeft s := by
  rw [stepsLeft_of_receiving hr, afterStore_storeByte (s := { s with tp := p }) hr]
  simp only [stepsLeft]
  split_ifs <;> simp only <;> omega

/-- Every step of a command in progress leaves fewer steps. -/
theorem Ticked.stepsLeft_lt {s t : State} (h : s.Inv) (hb : s.busy = true) (ht : Ticked s t) :
    stepsLeft t < stepsLeft s := by
  have hfails := h.busy_fails hb
  cases ht with
  | rest hn => exact absurd (hb.symm.trans hn) (by decide)
  | delayed hs =>
    simp only [stepsLeft, hs, delayPhase_seq, delayPhase_maxAttempts, delayPhase_fails]
    omega
  | flushed hs =>
    simp only [stepsLeft, hs, flushPhase_seq, flushPhase_maxAttempts, flushPhase_fails]
    omega
  | sent p hs =>
    have hlen := h.send_len hs
    simp only [stepsLeft, hs, hlen]
    omega
  | sendFailed p hs =>
    have hfail := stepsLeft_failAttempt (.plain .transportError) (s := { s with tp := p }) hfails
    have hsend : stepsLeft s = 263 * (s.maxAttempts - s.fails) - 1 := by rw [stepsLeft, hs]
    simp only at hfail
    omega
  | stored b p hr => exact stepsLeft_stored hfails hr (rxlen_lt_of_receiving h hr) b p
  | timedOut p hr =>
    have hfail := stepsLeft_failAttempt (.plain .transportTimeout) (s := { s with tp := p }) hfails
    have hrecv := stepsLeft_of_receiving hr
    have hlen : s.rxlen < 260 := rxlen_lt_of_receiving h hr
    simp only at hfail
    omega
  | fatal p hs =>
    have hpos : 0 < stepsLeft s := by
      obtain hs | hr := hs
      · rw [stepsLeft, hs]
        simp only
        omega
      · have hrecv := stepsLeft_of_receiving hr
        have hlen : s.rxlen < 260 := rxlen_lt_of_receiving h hr
        omega
    simpa only [stepsLeft, enterFatal_seq] using hpos
  | completed ws hs =>
    simp only [stepsLeft, hs, completeCommand_seq]
    omega
  | rejected f hs =>
    have hfail := stepsLeft_failAttempt f (s := { s with crc := crc16 s.rxFrame }) hfails
    have hcheck : stepsLeft s = 263 * (s.maxAttempts - s.fails) - 262 := by rw [stepsLeft, hs]
    simp only at hfail
    omega

/-- A command in progress ends within the steps it has left. -/
theorem run_ends {n : Nat} {s : State} (h : s.Inv) (hport : s.port = []) (hn : stepsLeft s ≤ n) :
    ∃ (k : Nat) (t : State), k ≤ n ∧ core.run k s = .next t ∧ t.busy = false := by
  induction n generalizing s with
  | zero =>
    refine ⟨0, s, le_rfl, run_zero s, Bool.eq_false_iff.2 fun hb => ?_⟩
    obtain ⟨t, ht⟩ := tick_next_of_inv h
    have := (ticked_tick ht).stepsLeft_lt h hb
    omega
  | succ n ih =>
    by_cases hb : s.busy = true
    · obtain ⟨t, ht⟩ := tick_next_of_inv h
      have hless := (ticked_tick ht).stepsLeft_lt h hb
      obtain ⟨k, u, hk, hrun, hend⟩ := ih (inv_tick h ht) ((tick_port ht).trans hport) (by omega)
      exact ⟨k + 1, u, by omega, (run_succ_of_step ((step_of_port_nil hport).trans ht) k).trans hrun, hend⟩
    · exact ⟨0, s, Nat.zero_le _, run_zero s, Bool.eq_false_iff.2 hb⟩

/-- Settles O45: every step leaves fewer steps. -/
theorem commandsEnd : Obligations.CommandsEnd := fun s h _ hport => run_ends h hport (stepsLeft_le s)

end Sys2Proof.Machine
end

section
/-! The phases compute the loop form of `execute` (R150 and R166 against R151 to R158). -/

namespace Sys2Proof.Machine

open Sys2Proof.Claims

/-! ### The receive loops -/

/-- What the third byte of the head makes of the state (R156). -/
def headComplete (s : State) : State := { setNeed s.reqMode s with seq := .recvBody }

/-- What the last byte of the frame makes of the state (R156). -/
def frameComplete (s : State) : State := { s with seq := .check }

/-- In phase `q` with `RXNEED = need` bytes are only stored up to the `limit`-th, which also makes `last` of the state. -/
def Collects (q : Phase) (need limit : Nat) (last : State → State) : Prop :=
  ∀ s : State, s.seq = q → s.rxneed = need → afterStore s = if s.rxlen = limit then last s else s

theorem collects_head (need : Nat) : Collects .recvHead need 3 headComplete := by
  intro s hs _
  split
  · next hl => exact afterStore_head_done hs hl
  · next hl => exact afterStore_head_more hs hl

theorem collects_body (need : Nat) : Collects .recvBody need need frameComplete := by
  intro s hs hneed
  split
  · next hl => exact afterStore_body_done hs (hl.trans hneed.symm)
  · next hl => exact afterStore_body_more hs fun h => hl (h.trans hneed)

/-- Where the phases go from the end of the receive loop: on with the response, or to the end of the attempt. -/
def afterLoop (q : Phase) (last : State → State) (r : Option AttemptResult × State) : State :=
  match r.1 with
  | some a => conclude (a, r.2)
  | none => last { r.2 with seq := q }

theorem recvLoop_of_byte {s : State} {b : Byte} (h : (Transport.recvByte s.tp).1 = .byte b) (n : Nat) :
    recvLoop (n + 1) s = recvLoop n (storeByte b { s with tp := (Transport.recvByte s.tp).2 }) := by
  simp only [recvLoop, h]

theorem recvLoop_of_timeout {s : State} (h : (Transport.recvByte s.tp).1 = .timeout) (n : Nat) :
    recvLoop (n + 1) s = (some (.failed (.plain .transportTimeout)), { s with tp := (Transport.recvByte s.tp).2 }) := by
  simp only [recvLoop, h]

theorem recvLoop_of_fatalFault {s : State} (h : (Transport.recvByte s.tp).1 = .fatalFault) (n : Nat) :
    recvLoop (n + 1) s = (some .fatal, { s with tp := (Transport.recvByte s.tp).2 }) := by
  simp only [recvLoop, h]

/-- Step by step a phase collects what the receive loop collects, and ends the attempt as the loop does. -/
theorem recvLoop_reaches {q : Phase} (hq : q = .recvHead ∨ q = .recvBody) {need limit : Nat} {last : State → State}
    (hlast : Collects q need limit last) (hlimit : limit ≤ 260) (n : Nat) {s : State} (hport : s.port = [])
    (hneed : s.rxneed = need) (hlen : s.rxlen + n = limit) :
    Reaches (if s.rxlen = limit then last { s with seq := q } else { s with seq := q })
      (afterLoop q last (recvLoop n s)) := by
  induction n generalizing s with
  | zero =>
    have hlen : s.rxlen = limit := hlen
    rw [if_pos hlen]
    exact .refl _
  | succ n ih =>
    have hr : State.receiving { s with seq := q } = true := (receiving_iff _).2 hq
    have hlt : s.rxlen < Config.rxbufMax := by
      simp only [Config.rxbufMax]
      omega
    have hnext : s.rxlen + 1 + n = limit := by omega
    rw [if_neg (by omega)]
    cases ha : (Transport.recvByte s.tp).1 with
    | byte b =>
      have hstore := hlast (storeByte b { s with seq := q, tp := (Transport.recvByte s.tp).2 }) rfl hneed
      rw [recvLoop_of_byte ha]
      refine .trans (.of_tick hport ((tick_of_receiving hr).trans (recvPhase_of_byte (s := { s with seq := q }) hlt ha))) ?_
      rw [hstore]
      exact ih (s := storeByte b { s with tp := (Transport.recvByte s.tp).2 }) hport hneed hnext
    | timeout =>
      rw [recvLoop_of_timeout ha]
      refine .of_tick hport ((tick_of_receiving hr).trans ((recvPhase_of_timeout (s := { s with seq := q }) ha).trans (congrArg _ ?_)))
      exact failAttempt_with_seq _ q { s with tp := (Transport.recvByte s.tp).2 }
    | fatalFault =>
      rw [recvLoop_of_fatalFault ha]
      exact .of_tick hport ((tick_of_receiving hr).trans (recvPhase_of_fatalFault (s := { s with seq := q }) ha))

theorem recvLoop_rxlen {n : Nat} {s : State} (h : (recvLoop n s).1 = none) : (recvLoop n s).2.rxlen = s.rxlen + n := by
  induction n generalizing s with
  | zero => rfl
  | succ n ih =>
    cases ha : (Transport.recvByte s.tp).1 with
    | byte b =>
      rw [recvLoop_of_byte ha] at h ⊢
      rw [ih h, storeByte_rxlen]
      exact Nat.add_right_comm s.rxlen 1 n
    | timeout =>
      rw [recvLoop_of_timeout ha] at h
      cases h
    | fatalFault =>
      rw [recvLoop_of_fatalFault ha] at h
      cases h

/-! ### One attempt -/

/-- `CHECK` concludes the attempt as the loop's verdict does. -/
theorem checkPhase_eq_conclude (s : State) :
    checkPhase { s with seq := .check } = conclude (judge s.reqFn s.reqMode s.reqCount s) := by
  have hverdict : State.verdict { s with seq := .check } = validate s.devAddr s.rxFrame s.reqFn s.reqMode s.reqCount := rfl
  rw [checkPhase, hverdict, judge, conclude]
  cases validate s.devAddr s.rxFrame s.reqFn s.reqMode s.reqCount with
  | ok ws => rfl
  | frameFault c => exact failAttempt_with_seq (.plain c) .check { s with crc := crc16 s.rxFrame }
  | deviceException code => exact failAttempt_with_seq (.exception code) .check { s with crc := crc16 s.rxFrame }

theorem attemptReceive_of_some {s t : State} {r : AttemptResult} (h : recvLoop Config.headLen s = (some r, t))
    (fn : Byte) (m : Mode) (k : Word) : attemptReceive fn m k s = (r, t) := by
  simp only [attemptReceive, h]

theorem attemptReceive_of_none {s t : State} (h : recvLoop Config.headLen s = (none, t)) (fn : Byte) (m : Mode)
    (k : Word) : attemptReceive fn m k s = attemptBody fn m k t := by
  simp only [attemptReceive, h]

theorem attemptBody_of_some {s t : State} {r : AttemptResult} {m : Mode}
    (h : recvLoop ((setNeed m s).rxneed - Config.headLen) (setNeed m s) = (some r, t)) (fn : Byte) (k : Word) :
    attemptBody fn m k s = (r, t) := by
  simp only [attemptBody, h]

theorem attemptBody_of_none {s t : State} {m : Mode}
    (h : recvLoop ((setNeed m s).rxneed - Config.headLen) (setNeed m s) = (none, t)) (fn : Byte) (k : Word) :
    attemptBody fn m k s = judge fn m k t := by
  simp only [attemptBody, h]

/-- The body of a response whose head is there (R156, R157). -/
theorem attemptBody_reaches {s : State} (hport : s.port = []) (hlen : s.rxlen = 3) :
    Reaches (headComplete s) (conclude (attemptBody s.reqFn s.reqMode s.reqCount s)) := by
  have hneed : 5 ≤ (setNeed s.reqMode s).rxneed ∧ (setNeed s.reqMode s).rxneed ≤ 260 := rxNeed_le _ _ _
  have hloop := recvLoop_reaches (.inr rfl) (collects_body _) hneed.2 ((setNeed s.reqMode s).rxneed - Config.headLen)
    (s := setNeed s.reqMode s) hport rfl (by
      rw [setNeed_rxlen, hlen, Config.headLen]
      omega)
  have hframe := recvLoop_frame ((setNeed s.reqMode s).rxneed - Config.headLen) (setNeed s.reqMode s)
  rw [if_neg (by rw [setNeed_rxlen, hlen]; omega)] at hloop
  refine .trans hloop ?_
  rcases hr : recvLoop ((setNeed s.reqMode s).rxneed - Config.headLen) (setNeed s.reqMode s) with ⟨_ | r, t⟩
  · rw [hr] at hframe
    have hjudge : judge s.reqFn s.reqMode s.reqCount t = judge t.reqFn t.reqMode t.reqCount t := by
      rw [show t = _ from hframe]
      rfl
    have htport : t.port = [] := by
      rw [show t = _ from hframe]
      exact hport
    have hcheck : tick { t with seq := .check } = .next (checkPhase { t with seq := .check }) := tick_of_check rfl
    rw [checkPhase_eq_conclude, ← hjudge] at hcheck
    rw [attemptBody_of_none hr]
    exact .of_tick htport hcheck
  · rw [attemptBody_of_some hr]
    exact .refl _

/-- The receive half of an attempt (R156, R157). -/
theorem attemptReceive_reaches {s : State} (hport : s.port = []) (hlen : s.rxlen = 0) :
    Reaches { s with seq := .recvHead } (conclude (attemptReceive s.reqFn s.reqMode s.reqCount s)) := by
  have hloop := recvLoop_reaches (.inl rfl) (collects_head _) (by decide) Config.headLen hport rfl
    (by rw [hlen, Config.headLen])
  have hframe := recvLoop_frame Config.headLen s
  have hstored := recvLoop_rxlen (n := Config.headLen) (s := s)
  rw [if_neg (by rw [hlen]; decide)] at hloop
  refine .trans hloop ?_
  rcases hr : recvLoop Config.headLen s with ⟨_ | r, t⟩
  · rw [hr] at hframe hstored
    have hbody : attemptBody s.reqFn s.reqMode s.reqCount t = attemptBody t.reqFn t.reqMode t.reqCount t := by
      rw [show t = _ from hframe]
    have htport : t.port = [] := by
      rw [show t = _ from hframe]
      exact hport
    have htlen : t.rxlen = 3 := by
      rw [hstored rfl, hlen, Config.headLen]
    rw [attemptReceive_of_none hr, hbody]
    exact attemptBody_reaches htport htlen
  · rw [attemptReceive_of_some hr]
    exact .refl _

/-- The state after an attempt's flush and send, before it receives (R166). -/
def sentState (frame : List Byte) (s : State) : State :=
  { beginAttempt s with tp := (Transport.send frame (Transport.flushInput s.tp)).2 }

theorem attempt_of_ok {s : State} (h : (Transport.flushInput s.tp).turn.answer = .ok) (frame : List Byte) (fn : Byte)
    (m : Mode) (k : Word) : attempt frame fn m k s = attemptReceive fn m k (sentState frame s) := by
  simp only [attempt, beginAttempt_tp, Transport.send, h, sentState]

theorem attempt_of_fault {s : State} (h : (Transport.flushInput s.tp).turn.answer = .fault) (frame : List Byte)
    (fn : Byte) (m : Mode) (k : Word) :
    attempt frame fn m k s = (.failed (.plain .transportError), sentState frame s) := by
  simp only [attempt, beginAttempt_tp, Transport.send, h, sentState]

theorem attempt_of_fatalFault {s : State} (h : (Transport.flushInput s.tp).turn.answer = .fatalFault)
    (frame : List Byte) (fn : Byte) (m : Mode) (k : Word) :
    attempt frame fn m k s = (.fatal, sentState frame s) := by
  simp only [attempt, beginAttempt_tp, Transport.send, h, sentState]

/-- From `FLUSH` the phases reach the state that a concluded attempt of the loop form leaves. -/
theorem attempt_reaches {s : State} (hs : s.seq = .flush) (hport : s.port = []) :
    Reaches s (conclude (attempt s.txFrame s.reqFn s.reqMode s.reqCount s)) := by
  refine .trans (.of_tick hport (tick_of_flush hs)) ?_
  have hsend : tick (flushPhase s) = .next (afterSend (Transport.flushInput s.tp).turn.answer
      { sentState s.txFrame s with seq := .send }) := (tick_of_send rfl).trans (congrArg _ (sendPhase_eq _))
  refine .trans (.of_tick hport hsend) ?_
  cases ha : (Transport.flushInput s.tp).turn.answer with
  | ok =>
    rw [attempt_of_ok ha]
    exact attemptReceive_reaches (s := sentState s.txFrame s) hport rfl
  | fault =>
    rw [attempt_of_fault ha, afterSend, failAttempt_with_seq]
    exact .refl _
  | fatalFault =>
    rw [attempt_of_fatalFault ha]
    exact .refl _

/-! ### The loop -/

theorem conclude_attempt_frame (frame : List Byte) (fn : Byte) (m : Mode) (k : Word) (s : State) :
    ExchangeOnly s (conclude (attempt frame fn m k s)) :=
  (exchangeOnly_attempt frame fn m k s).trans (exchangeOnly_conclude _)

/-- The phases reach what the loop computes, however many turns it is given. -/
theorem executeLoop_reaches (n : Nat) {s : State} (hs : s.seq = .flush) (hport : s.port = []) :
    Reaches s (executeLoop s.txFrame s.reqFn s.reqMode s.reqCount n s) := by
  induction n generalizing s with
  | zero => exact .refl s
  | succ n ih =>
    refine .trans (attempt_reaches hs hport) ?_
    have hframe := conclude_attempt_frame s.txFrame s.reqFn s.reqMode s.reqCount s
    rw [executeLoop_succ _ _ _ _ _ hs]
    generalize conclude (attempt s.txFrame s.reqFn s.reqMode s.reqCount s) = u at hframe ⊢
    split
    · next hflush =>
      have hnext := ih hflush (hframe.port.trans hport)
      have htx : u.txFrame = s.txFrame ∧ u.reqFn = s.reqFn ∧ u.reqMode = s.reqMode ∧ u.reqCount = s.reqCount := by
        rw [show u = _ from hframe]
        exact ⟨rfl, rfl, rfl, rfl⟩
      obtain ⟨htx, hfn, hmode, hcount⟩ := htx
      rwa [htx, hfn, hmode, hcount] at hnext
    · exact .refl u

/-- Settles O58: attempt by attempt the two forms meet. -/
theorem loopFormIsPhaseForm : Obligations.LoopFormIsPhaseForm := fun _ n _ hs hport _ => executeLoop_reaches n hs hport

end Sys2Proof.Machine
end

section
/-! A command at the port runs to what `execute` computes (R150, R151, R160 to R162). -/

namespace Sys2Proof.Machine

open Sys2Proof.Claims

/-! ### A write-class request's count plays no part -/

theorem validate_fixed8_count (dev : Byte) (rx : List Byte) (fn : Byte) (k k' : Word) :
    validate dev rx fn .fixed8 k = validate dev rx fn .fixed8 k' := by
  simp [validate, resultWords]

theorem judge_fixed8_count (fn : Byte) (k k' : Word) (s : State) : judge fn .fixed8 k s = judge fn .fixed8 k' s := by
  rw [judge, judge, validate_fixed8_count]

theorem attemptBody_fixed8_count (fn : Byte) (k k' : Word) (s : State) :
    attemptBody fn .fixed8 k s = attemptBody fn .fixed8 k' s := by
  rcases hr : recvLoop ((setNeed .fixed8 s).rxneed - Config.headLen) (setNeed .fixed8 s) with ⟨_ | r, t⟩
  · rw [attemptBody_of_none hr, attemptBody_of_none hr, judge_fixed8_count fn k k']
  · rw [attemptBody_of_some hr, attemptBody_of_some hr]

theorem attemptReceive_fixed8_count (fn : Byte) (k k' : Word) (s : State) :
    attemptReceive fn .fixed8 k s = attemptReceive fn .fixed8 k' s := by
  rcases hr : recvLoop Config.headLen s with ⟨_ | r, t⟩
  · rw [attemptReceive_of_none hr, attemptReceive_of_none hr, attemptBody_fixed8_count fn k k']
  · rw [attemptReceive_of_some hr, attemptReceive_of_some hr]

theorem attempt_fixed8_count (frame : List Byte) (fn : Byte) (k k' : Word) (s : State) :
    attempt frame fn .fixed8 k s = attempt frame fn .fixed8 k' s := by
  cases ha : (Transport.flushInput s.tp).turn.answer with
  | ok => rw [attempt_of_ok ha, attempt_of_ok ha, attemptReceive_fixed8_count fn k k']
  | fault => rw [attempt_of_fault ha, attempt_of_fault ha]
  | fatalFault => rw [attempt_of_fatalFault ha, attempt_of_fatalFault ha]

theorem executeLoop_fixed8_count (frame : List Byte) (fn : Byte) (k k' : Word) (n : Nat) {s : State}
    (hs : s.seq = .flush) : executeLoop frame fn .fixed8 k n s = executeLoop frame fn .fixed8 k' n s := by
  induction n generalizing s with
  | zero => rfl
  | succ n ih =>
    rw [executeLoop_succ _ _ _ _ _ hs, executeLoop_succ _ _ _ _ _ hs, attempt_fixed8_count frame fn k k']
    split
    · next hflush => exact ih hflush
    · rfl

/-! ### From acceptance to the end -/

/-- The delay, where the request takes it, is the sequencer's step before the loop starts. -/
theorem startRequest_reaches (fn : Byte) (p : List Byte) (m : Mode) (k : Word) {s : State} (hport : s.port = []) :
    Reaches (startRequest fn p m k s) (prepareExecute fn p m k s) := by
  unfold prepareExecute takeDelay
  split
  · next hdelay => exact .of_tick hport (tick_of_delay hdelay)
  · exact .refl _

theorem prepareExecute_txFrame {s : State} (h : Memory.wf Config.txbufMax s.txbuf = true) (fn : Byte) (p : List Byte)
    (m : Mode) (k : Word) : (prepareExecute fn p m k s).txFrame = requestFrame s.devAddr fn p := by
  rw [prepareExecute_eq]
  exact txFrame_start fn p m k h

/-- A started request runs to what `execute` computes of it. -/
theorem execute_reaches {s : State} (h : s.Inv) (hport : s.port = []) (fn : Byte) (p : List Byte) (m : Mode) (k : Word) :
    Reaches (startRequest fn p m k s) (execute fn p m k s) := by
  have hseq := prepareExecute_seq fn p m k s
  have hloop := executeLoop_reaches (s.maxAttempts + 1) hseq (by rw [prepareExecute_eq]; exact hport)
  have hlatched : (prepareExecute fn p m k s).reqFn = fn ∧ (prepareExecute fn p m k s).reqMode = m ∧
      (prepareExecute fn p m k s).reqCount = if m = .selfdesc then k else s.reqCount := by
    rw [prepareExecute_eq]
    exact ⟨rfl, rfl, rfl⟩
  obtain ⟨hfn, hmode, hcount⟩ := hlatched
  rw [prepareExecute_txFrame h.txbuf_wf, hfn, hmode, hcount] at hloop
  refine .trans (startRequest_reaches fn p m k hport) ?_
  cases m with
  | selfdesc => exact hloop
  | fixed8 => rwa [execute, executeLoop_fixed8_count _ fn k s.reqCount _ hseq]

/-- A command alone at the port is taken in `IDLE`. -/
theorem command_reaches {s t : State} {i : Instr} (hi : s.seq = .idle) (hport : s.port = [.op (encode i)])
    (hwf : i.wf = true) (hexec : exec i { s with port := [] } = .next t) : Reaches s t := by
  have hfree : s.busy = false := (busy_eq_false_iff s).2 (.inl hi)
  exact .of_step ((step_of_taken hport (.inl hfree)).trans ((takeItem_op (decodeOfEncode i hwf) _).trans hexec))

theorem readWords_reaches {s : State} (h : s.Inv) (hi : s.seq = .idle) {a : Int} (ha : goodAddress a) {k : Word}
    (hport : s.port = [.op (encode (.readWords a k))]) :
    Reaches s (execute fnRead (encRead (addressWord a) k) .selfdesc k { s with port := [] }) :=
  .trans (command_reaches hi hport rfl (exec_readWords_of_good (s := { s with port := [] }) hi ha k))
    (execute_reaches (inv_port h []) rfl _ _ _ _)

/-- Settles O59: acceptance starts the request that `execute` starts, and the phases run it as the loop does. -/
theorem hostCommandsAreExecute : Obligations.HostCommandsAreExecute := by
  intro s a h hi ha
  have hinv : State.Inv { s with port := [] } := inv_port h []
  refine ⟨fun k hport => readWords_reaches h hi ha hport, fun x hx hport => ?_, fun xs hn hxs hport => ?_⟩
  · exact Reaches.trans (command_reaches hi hport rfl (exec_writeWord_of_good (s := { s with port := [] }) hi ha hx))
      (execute_reaches hinv rfl _ _ _ _)
  · exact Reaches.trans (command_reaches hi hport rfl (exec_writeWords_of_good (s := { s with port := [] }) hi ha hn hxs))
      (execute_reaches hinv rfl _ _ _ _)

end Sys2Proof.Machine
end

section
/-! An attempt under an environment that is named (R47, R166, R185): bytes let through one by one, and what ends them. -/

namespace Sys2Proof.Machine

open Sys2Proof.Claims

theorem turn_of_cons {tp : Transport} {t : Turn} {ts : List Turn} (h : tp.turns = t :: ts) : tp.turn = t := by
  rw [Transport.turn, h]

theorem advance_of_cons {tp : Transport} {t : Turn} {ts : List Turn} (h : tp.turns = t :: ts) :
    tp.advance = { tp with turns := ts } := by
  rw [Transport.advance, h]

/-- A byte that is buffered and let through. -/
theorem recvByte_of_clean {tp : Transport} {b : Byte} {bs : List Byte} {ts : List Turn} (hbuf : tp.inBuf = b :: bs)
    (hturns : tp.turns = ⟨[], .ok⟩ :: ts) : Transport.recvByte tp =
      (.byte b, { tp with inBuf := bs, turns := ts, bus := tp.bus ++ [.recvByte (.byte b)] }) := by
  simp [Transport.recvByte, turn_of_cons hturns, advance_of_cons hturns, hbuf, recvAnswer, restAfter, Transport.record]

/-- With nothing buffered a turn that lets no byte through is a timeout. -/
theorem recvByte_of_silence {tp : Transport} {arrivals : List Byte} {a : Answer} {ts : List Turn} (hbuf : tp.inBuf = [])
    (hturns : tp.turns = ⟨arrivals, a⟩ :: ts) (ha : a = .fault ∨ (a = .ok ∧ arrivals = [])) :
    (Transport.recvByte tp).1 = .timeout ∧ (Transport.recvByte tp).2.turns = ts := by
  obtain rfl | ⟨rfl, rfl⟩ := ha <;>
    simp [Transport.recvByte, turn_of_cons hturns, advance_of_cons hturns, hbuf, recvAnswer]

theorem recvByte_of_fatal {tp : Transport} {arrivals : List Byte} {ts : List Turn}
    (hturns : tp.turns = ⟨arrivals, .fatalFault⟩ :: ts) :
    (Transport.recvByte tp).1 = .fatalFault ∧ (Transport.recvByte tp).2.turns = ts := by
  simp [Transport.recvByte, turn_of_cons hturns, advance_of_cons hturns, recvAnswer]

theorem writeList_append {w : Nat} (m : Memory w) (a : Nat) (xs ys : List (BitVec w)) :
    Memory.writeList m a (xs ++ ys) = Memory.writeList (Memory.writeList m a xs) (a + xs.length) ys := by
  induction xs generalizing m a with
  | nil => rfl
  | cons x xs ih =>
    rw [List.cons_append, Memory.writeList, Memory.writeList, ih, List.length_cons, Nat.add_right_comm]
    rfl

/-- `s` after `bs` has been received, the transport then `p`. -/
def received (bs : List Byte) (p : Transport) (s : State) : State :=
  { s with rxbuf := Memory.writeList s.rxbuf s.rxlen bs, rxlen := s.rxlen + bs.length, tp := p }

/-- The receive loop takes the bytes that are buffered and let through. -/
theorem recvLoop_received {bs more : List Byte} {ts : List Turn} (n : Nat) {s : State} (hbuf : s.tp.inBuf = bs ++ more)
    (hturns : s.tp.turns = List.replicate bs.length ⟨[], .ok⟩ ++ ts) :
    ∃ p : Transport, p.inBuf = more ∧ p.turns = ts ∧ recvLoop (bs.length + n) s = recvLoop n (received bs p s) := by
  induction bs generalizing s with
  | nil => exact ⟨s.tp, hbuf, hturns, by rw [List.length_nil, Nat.zero_add]; rfl⟩
  | cons b bs ih =>
    have hbuf : s.tp.inBuf = b :: (bs ++ more) := hbuf
    have hturns : s.tp.turns = ⟨[], .ok⟩ :: (List.replicate bs.length ⟨[], .ok⟩ ++ ts) := hturns
    have hcall := recvByte_of_clean hbuf hturns
    have hbyte : (Transport.recvByte s.tp).1 = .byte b := by rw [hcall]
    obtain ⟨p, hmore, hts, hloop⟩ := ih (s := storeByte b { s with tp := (Transport.recvByte s.tp).2 })
      (by rw [storeByte_tp, hcall]) (by rw [storeByte_tp, hcall])
    refine ⟨p, hmore, hts, ?_⟩
    rw [List.length_cons, Nat.add_right_comm, recvLoop_of_byte hbyte, hloop]
    simp only [received, storeByte, Memory.writeList, List.length_cons]
    congr 2
    omega

theorem cleanExchange_append (rx : List Byte) (ts : List Turn) :
    cleanExchange rx ++ ts = ⟨[], .ok⟩ :: ⟨rx, .ok⟩ :: (List.replicate rx.length ⟨[], .ok⟩ ++ ts) := rfl

/-- A clean exchange: the frame sent, the response `rx` is buffered and every byte of it will be let through. -/
theorem sentState_of_cleanExchange {s : State} {rx : List Byte} {ts : List Turn}
    (h : s.tp.turns = cleanExchange rx ++ ts) (frame : List Byte) :
    (Transport.flushInput s.tp).turn.answer = .ok ∧ (sentState frame s).tp.inBuf = rx ∧
      (sentState frame s).tp.turns = List.replicate rx.length ⟨[], .ok⟩ ++ ts := by
  rw [cleanExchange_append] at h
  have hflush : (Transport.flushInput s.tp).turns = ⟨rx, .ok⟩ :: (List.replicate rx.length ⟨[], .ok⟩ ++ ts) := by
    simp only [Transport.flushInput, record_turns, advance_of_cons h]
  have hempty : (Transport.flushInput s.tp).inBuf = [] := by rw [flushInput_inBuf, turn_of_cons h]
  refine ⟨by rw [turn_of_cons hflush], ?_, ?_⟩
  · simp only [sentState, Transport.send, record_inBuf, turn_of_cons hflush, hempty, List.nil_append]
  · simp only [sentState, Transport.send, record_turns, advance_of_cons hflush]

/-- The state in which the body of a response starts, its head received. -/
theorem attempt_of_head {s : State} {h0 h1 h2 : Byte} {body : List Byte} {ts : List Turn}
    (h : s.tp.turns = cleanExchange (h0 :: h1 :: h2 :: body) ++ ts) (frame : List Byte) (fn : Byte) (m : Mode) (k : Word) :
    ∃ p : Transport, p.inBuf = body ∧ p.turns = List.replicate body.length ⟨[], .ok⟩ ++ ts ∧
      attempt frame fn m k s = attemptBody fn m k (received [h0, h1, h2] p (sentState frame s)) := by
  obtain ⟨hok, hbuf, hturns⟩ := sentState_of_cleanExchange h frame
  obtain ⟨p, hbody, hts, hloop⟩ := recvLoop_received (bs := [h0, h1, h2]) (more := body) 0 hbuf hturns
  exact ⟨p, hbody, hts, (attempt_of_ok hok frame fn m k).trans (attemptReceive_of_none hloop fn m k)⟩

/-- `RXNEED` after the head `h0 h1 h2` (R131). -/
theorem setNeed_received_head {s : State} (hwf : Memory.wf Config.rxbufMax s.rxbuf = true) (hlen : s.rxlen = 0)
    (h0 h1 h2 : Byte) (p : Transport) (m : Mode) :
    (setNeed m (received [h0, h1, h2] p s)).rxneed = rxNeed h1 h2 m := by
  have hwrite (b : Byte) {a : Nat} {rb : Memory 8} (hrb : Memory.wf Config.rxbufMax rb = true) (ha : a < 260) :
      Memory.wf Config.rxbufMax (Memory.write rb a b) = true := wf_write b hrb ha
  have hread2 := read_write_same (hwrite h1 (a := 1) (hwrite h0 (a := 0) hwf (by omega)) (by omega)) 2 h2
  have hread1 := read_write_same (hwrite h0 (a := 0) hwf (by omega)) 1 h1
  simp only [setNeed_rxneed, received, hlen, Memory.writeList]
  rw [hread2, read_write_ne h2 (by decide), hread1]

end Sys2Proof.Machine
end

section
/-! The result of an attempt (R166, R185): a response that stops before its end, and one that comes whole. -/

namespace Sys2Proof.Machine

open Sys2Proof.Claims

/-- The turns of an attempt's first two calls: the flush takes one, the send the other. -/
theorem sentState_of_turns {s : State} {t0 t1 : Turn} {ts : List Turn} (h : s.tp.turns = t0 :: t1 :: ts)
    (frame : List Byte) :
    (Transport.flushInput s.tp).turn = t1 ∧ (sentState frame s).tp.turns = ts := by
  have hflush : (Transport.flushInput s.tp).turns = t1 :: ts := by
    simp only [Transport.flushInput, record_turns, advance_of_cons h]
  refine ⟨turn_of_cons hflush, ?_⟩
  simp only [sentState, Transport.send, record_turns, advance_of_cons hflush]

/-- A response that stops: every byte of `pre` is received, and the call after them decides the attempt. -/
theorem attempt_of_prefix {s : State} (hwf : Memory.wf Config.rxbufMax s.rxbuf = true) {pre : List Byte} {ts : List Turn}
    {m : Mode} (hmore : needsMore pre m) (h : s.tp.turns = cleanExchange pre ++ ts) (frame : List Byte) (fn : Byte)
    (k : Word) : ∃ (u : State) (n : Nat), u.tp.inBuf = [] ∧ u.tp.turns = ts ∧ u.rxlen = pre.length ∧
      u.rxbuf = Memory.writeList s.rxbuf 0 pre ∧
      ∀ r t, recvLoop (n + 1) u = (some r, t) → attempt frame fn m k s = (r, t) := by
  obtain hshort | ⟨h1, h2, hh1, hh2, hlen⟩ := hmore
  · obtain ⟨hok, hbuf, hturns⟩ := sentState_of_cleanExchange h frame
    obtain ⟨p, hempty, hts, hloop⟩ := recvLoop_received (more := []) (2 - pre.length + 1)
      (hbuf.trans (List.append_nil pre).symm) hturns
    refine ⟨received pre p (sentState frame s), 2 - pre.length, hempty, hts, Nat.zero_add _, rfl, fun r t hr => ?_⟩
    have hhead : recvLoop Config.headLen (sentState frame s) = (some r, t) := by
      rw [← hr, ← hloop, Config.headLen]
      congr 1
      omega
    rw [attempt_of_ok hok, attemptReceive_of_some hhead]
  · match pre, hh1, hh2, hlen with
    | h0 :: _ :: _ :: body, rfl, rfl, hlen =>
      rw [← rxNeed_eq] at hlen
      obtain ⟨p, hbuf, hturns, hattempt⟩ := attempt_of_head h frame fn m k
      have hneed := setNeed_received_head (s := sentState frame s) hwf rfl h0 h1 h2 p m
      obtain ⟨q, hempty, hts, hloop⟩ := recvLoop_received (more := []) (rxNeed h1 h2 m - body.length - 4 + 1)
        (s := setNeed m (received [h0, h1, h2] p (sentState frame s))) (hbuf.trans (List.append_nil body).symm) hturns
      refine ⟨received body q (setNeed m (received [h0, h1, h2] p (sentState frame s))),
        rxNeed h1 h2 m - body.length - 4, hempty, hts, ?_, ?_, fun r t hr => ?_⟩
      · exact Nat.add_comm 3 body.length
      · exact (writeList_append s.rxbuf 0 [h0, h1, h2] body).symm
      · rw [hattempt]
        refine attemptBody_of_some ?_ fn k
        rw [← hr, ← hloop, hneed, Config.headLen]
        congr 1
        simp only [List.length_cons] at hlen
        omega

/-- `s` after the complete response `rx` has been received, the transport then `p`. -/
def frameReceived (rx : List Byte) (p : Transport) (s : State) : State :=
  { s with rxbuf := Memory.writeList s.rxbuf 0 rx, rxlen := rx.length, rxneed := rx.length, tp := p }

theorem frameReceived_rxFrame {s : State} (hwf : Memory.wf Config.rxbufMax s.rxbuf = true) {rx : List Byte}
    (hlen : rx.length ≤ 260) (p : Transport) : (frameReceived rx p s).rxFrame = rx := by
  have hcap : 0 + rx.length ≤ Config.rxbufMax := by
    simp only [Config.rxbufMax]
    omega
  exact readList_writeList rx hwf hcap

theorem completeFrame_length_le {rx : List Byte} {m : Mode} (h : completeFrame rx m = true) : rx.length ≤ 260 := by
  rw [completeFrame_length h]
  exact (rxNeed_le _ _ _).2

/-- Head and body received one after the other are the whole frame received. -/
theorem received_body_head {s : State} (hwf : Memory.wf Config.rxbufMax s.rxbuf = true) (hrxlen : s.rxlen = 0)
    {h0 h1 h2 : Byte} {body : List Byte} {m : Mode} (hlen : body.length + 3 = rxNeed h1 h2 m) (p q : Transport) :
    received body q (setNeed m (received [h0, h1, h2] p s)) = frameReceived (h0 :: h1 :: h2 :: body) q s := by
  have hneed := setNeed_received_head hwf hrxlen h0 h1 h2 p m
  have hrxneed : rxNeed h1 h2 m = (h0 :: h1 :: h2 :: body).length := hlen.symm
  have hcount : 0 + 3 + body.length = (h0 :: h1 :: h2 :: body).length := by
    simp only [List.length_cons]
    omega
  have hbuf := writeList_append s.rxbuf 0 [h0, h1, h2] body
  rw [setNeed_rxneed] at hneed
  simp only [received, setNeed, frameReceived, hrxlen] at hneed ⊢
  rw [hneed, hrxneed, ← hcount]
  exact congrArg (fun rb => ({ s with
    rxbuf := rb, rxlen := 0 + 3 + body.length, rxneed := 0 + 3 + body.length, tp := q } : State)) hbuf.symm

/-- A complete response in a clean exchange is received whole and judged. -/
theorem attempt_of_complete {s : State} (hwf : Memory.wf Config.rxbufMax s.rxbuf = true) {rx : List Byte} {ts : List Turn}
    {m : Mode} (hc : completeFrame rx m = true) (h : s.tp.turns = cleanExchange rx ++ ts) (frame : List Byte) (fn : Byte)
    (k : Word) : ∃ p : Transport, p.turns = ts ∧ attempt frame fn m k s = judge fn m k (frameReceived rx p s) := by
  match rx with
  | h0 :: h1 :: h2 :: body =>
    have hlen : body.length + 3 = rxNeed h1 h2 m := completeFrame_length hc
    obtain ⟨p, hbuf, hturns, hattempt⟩ := attempt_of_head h frame fn m k
    have hneed := setNeed_received_head (s := sentState frame s) hwf rfl h0 h1 h2 p m
    obtain ⟨q, -, hts, hloop⟩ := recvLoop_received (more := []) 0
      (s := setNeed m (received [h0, h1, h2] p (sentState frame s))) (hbuf.trans (List.append_nil body).symm) hturns
    have hall := received_body_head (s := sentState frame s) hwf rfl (h0 := h0) hlen p q
    refine ⟨q, hts, hattempt.trans ?_⟩
    refine (attemptBody_of_none ?_ fn k).trans (congrArg (judge fn m k) hall)
    rw [hneed, ← hlen]
    exact hloop

theorem exec_attempt_of_idle {s : State} (hi : s.seq = .idle) (frame : List Byte) (fn : Byte) (m : Mode) (k : Word) :
    exec (.attempt frame fn m k) s =
      .next (setRet (.attempt (attempt frame fn m k s).1) (attempt frame fn m k s).2) := by
  show execAttempt frame fn m k s = _
  rw [execAttempt, if_pos hi]

/-- What `pre` leaves in `RXBUF` is read back: it is shorter than any response. -/
theorem readList_of_needsMore {s : State} (hwf : Memory.wf Config.rxbufMax s.rxbuf = true) {pre : List Byte} {m : Mode}
    (hmore : needsMore pre m) : Memory.readList (Memory.writeList s.rxbuf 0 pre) 0 pre.length = pre := by
  have hlen : 0 + pre.length ≤ 260 := by
    obtain hshort | ⟨h1, h2, -, -, hlen⟩ := hmore
    · omega
    · rw [← rxNeed_eq] at hlen
      have := rxNeed_le h1 h2 m
      omega
  exact readList_writeList pre hwf hlen

/-- Settles O56: the answer of the send, then the call that ends the response, then the verdict. -/
theorem attemptResult : Obligations.AttemptResult := by
  intro s frame fn m k rx rest h hi
  rw [exec_attempt_of_idle hi]
  refine ⟨fun a0 a1 e hturns => ?_, fun a0 a1 e hturns => ?_, fun pre arrivals a hmore ha hturns => ?_,
    fun pre arrivals hmore hturns => ?_, fun hc hturns => ?_⟩
  · obtain ⟨hturn, hrest⟩ := sentState_of_turns hturns frame
    rw [attempt_of_fault (congrArg Turn.answer hturn)]
    exact ⟨_, rfl, rfl, hrest⟩
  · obtain ⟨hturn, hrest⟩ := sentState_of_turns hturns frame
    rw [attempt_of_fatalFault (congrArg Turn.answer hturn)]
    exact ⟨_, rfl, rfl, hrest⟩
  · obtain ⟨u, n, hbuf, hts, hlen, hrxbuf, hstop⟩ := attempt_of_prefix h.rxbuf_wf hmore hturns frame fn k
    obtain ⟨hanswer, hrest⟩ := recvByte_of_silence hbuf hts ha
    rw [hstop _ _ (recvLoop_of_timeout hanswer n)]
    refine ⟨_, rfl, rfl, hlen, ?_, hrest⟩
    show Memory.readList u.rxbuf 0 pre.length = pre
    rw [hrxbuf, readList_of_needsMore h.rxbuf_wf hmore]
  · obtain ⟨u, n, -, hts, hlen, hrxbuf, hstop⟩ := attempt_of_prefix h.rxbuf_wf hmore hturns frame fn k
    obtain ⟨hanswer, hrest⟩ := recvByte_of_fatal hts
    rw [hstop _ _ (recvLoop_of_fatalFault hanswer n)]
    refine ⟨_, rfl, rfl, hlen, ?_, hrest⟩
    show Memory.readList u.rxbuf 0 pre.length = pre
    rw [hrxbuf, readList_of_needsMore h.rxbuf_wf hmore]
  · obtain ⟨p, hrest, hattempt⟩ := attempt_of_complete h.rxbuf_wf hc hturns frame fn k
    have hframe := frameReceived_rxFrame h.rxbuf_wf (completeFrame_length_le hc) p
    rw [hattempt, judge, hframe]
    refine ⟨_, rfl, hframe, hrest, ?_⟩
    show RetVal.attempt (validate s.devAddr rx fn m k).result = _
    cases validate s.devAddr rx fn m k <;> rfl

end Sys2Proof.Machine
end

section
/-! A good response to a read request (R65, R134), and that any words can come in one (R137, R214). -/

namespace Sys2Proof.Machine

open Sys2Proof.Claims

/-- RS-R with its own CRC (R65). -/
def readResponse (dev : Byte) (data : List Byte) : List Byte := appendCrc (rspReadBody dev data)

theorem readResponse_eq (dev : Byte) (data : List Byte) :
    readResponse dev data = dev :: fnRead :: BitVec.ofNat 8 data.length :: (data ++ computeCrc (rspReadBody dev data)) :=
  rfl

theorem length_readResponse (dev : Byte) (data : List Byte) : (readResponse dev data).length = 5 + data.length := by
  simp only [readResponse_eq, List.length_cons, List.length_append, computeCrc, length_le16]
  omega

theorem completeFrame_readResponse (dev : Byte) {data : List Byte} (hn : data.length ≤ 255) :
    completeFrame (readResponse dev data) .selfdesc = true := by
  have hcount : (BitVec.ofNat 8 data.length).toNat = data.length := toNat_ofNat_length (by omega)
  refine decide_eq_true ?_
  rw [length_readResponse, rxNeed_eq, hcount]
  rfl

/-- A good read response passes the four checks (R133). -/
theorem validate_readResponse (dev : Byte) {data : List Byte} {k : Word} (hn : data.length ≤ 255)
    (hk : data.length = 2 * k.toNat) : validate dev (readResponse dev data) fnRead .selfdesc k =
      .ok (resultWords (readResponse dev data) .selfdesc k) := by
  refine validate_eq_ok_iff.2 ⟨crc16_appendCrc _, rfl, rfl, fun _ => ?_, rfl⟩
  exact (toNat_ofNat_length (w := 8) (by omega)).trans hk

theorem byteAt_readResponse (dev : Byte) {data : List Byte} {i : Nat} (hi : i < data.length) :
    byteAt (readResponse dev data) (i + 3) = data.getD i 0 := by
  rw [readResponse_eq, byteAt, List.getD_cons_succ, List.getD_cons_succ, List.getD_cons_succ,
    List.getD_append _ _ _ _ hi, List.getD_eq_getElem _ _ hi, List.getD_eq_getElem _ _ hi]

/-- Word `i` of a good read response is made of its bytes `2i` and `2i + 1` (R134). -/
theorem getElem?_resultWords_readResponse (dev : Byte) {data : List Byte} {k : Word} (hk : data.length = 2 * k.toNat)
    {i : Nat} (hi : i < k.toNat) : (resultWords (readResponse dev data) .selfdesc k)[i]? =
      some (u16be (data.getD (2 * i) 0) (data.getD (2 * i + 1) 0)) := by
  rw [getElem?_resultWords_selfdesc _ hi, Nat.add_comm 3, ← byteAt_readResponse dev (i := 2 * i) (by omega),
    ← byteAt_readResponse dev (i := 2 * i + 1) (by omega), Nat.add_comm 4]

/-- The bytes of a sequence of fields, field by field (R40). -/
theorem getElem?_flatMap_be16 (ws : List Word) (i : Nat) :
    (ws.flatMap be16)[2 * i]? = ws[i]?.map hiByte ∧ (ws.flatMap be16)[2 * i + 1]? = ws[i]?.map loByte := by
  induction ws generalizing i with
  | nil => exact ⟨rfl, rfl⟩
  | cons w ws ih =>
    cases i with
    | zero => exact ⟨rfl, rfl⟩
    | succ i => exact ih i

/-- The words put into a read response are the words it gives. -/
theorem resultWords_readResponse (dev : Byte) {ws : List Word} (hn : ws.length ≤ 127) :
    resultWords (readResponse dev (ws.flatMap be16)) .selfdesc (BitVec.ofNat 16 ws.length) = ws := by
  have hk : (BitVec.ofNat 16 ws.length).toNat = ws.length := toNat_ofNat_length (by omega)
  have hlen : (ws.flatMap be16).length = 2 * (BitVec.ofNat 16 ws.length).toNat := by rw [length_flatMap_be16, hk]
  apply List.ext_getElem?
  intro i
  by_cases hi : i < ws.length
  · obtain ⟨hhi, hlo⟩ := getElem?_flatMap_be16 ws i
    rw [getElem?_resultWords_readResponse dev hlen (hk.symm ▸ hi), List.getD_eq_getElem?_getD, List.getD_eq_getElem?_getD,
      hhi, hlo, List.getElem?_eq_getElem hi]
    simp
  · have hge := Nat.not_lt.1 hi
    rw [List.getElem?_eq_none (l := ws) hge, List.getElem?_eq_none]
    rwa [length_resultWords_selfdesc, hk]

/-- One clean exchange with a response that passes ends `execute`. -/
theorem execute_of_complete {s : State} (h : s.Inv) {rx : List Byte} {ts : List Turn} {fn : Byte} {m : Mode} {k : Word}
    {ws : List Word} (hc : completeFrame rx m = true) (hturns : s.tp.turns = cleanExchange rx ++ ts)
    (hv : validate s.devAddr rx fn m k = .ok ws) (p : List Byte) :
    ∃ u : State, execute fn p m k s = completeCommand ws u ∧ u.fails = 0 ∧ u.result = s.result := by
  have hprep := prepareExecute_eq fn p m k s
  have hturns' : (prepareExecute fn p m k s).tp.turns = cleanExchange rx ++ ts := by
    rw [hprep]
    exact hturns
  have hwf : Memory.wf Config.rxbufMax (prepareExecute fn p m k s).rxbuf = true := by
    rw [hprep]
    exact h.rxbuf_wf
  obtain ⟨q, -, hattempt⟩ := attempt_of_complete hwf hc hturns' (requestFrame s.devAddr fn p) fn k
  have hverdict : validate (frameReceived rx q (prepareExecute fn p m k s)).devAddr
      (frameReceived rx q (prepareExecute fn p m k s)).rxFrame fn m k = .ok ws := by
    rw [frameReceived_rxFrame hwf (completeFrame_length_le hc) q, hprep]
    exact hv
  refine ⟨(judge fn m k (frameReceived rx q (prepareExecute fn p m k s))).2, ?_, ?_, ?_⟩
  · have hconclude : conclude (attempt (requestFrame s.devAddr fn p) fn m k (prepareExecute fn p m k s)) =
        completeCommand ws (judge fn m k (frameReceived rx q (prepareExecute fn p m k s))).2 := by
      rw [hattempt, judge, hverdict]
      rfl
    rw [execute, executeLoop_succ _ _ _ _ _ (prepareExecute_seq fn p m k s), hconclude, if_neg (by simp)]
  · rw [hprep]
    rfl
  · rw [hprep]
    rfl

/-- Settles O60: the words are sent back in a good read response, and the run is `execute`'s. -/
theorem anyWordsCanBeDelivered : Obligations.AnyWordsCanBeDelivered := by
  intro s a ws h hi ha hn
  have hk : (BitVec.ofNat 16 ws.length).toNat = ws.length := toNat_ofNat_length (by omega)
  have hlen : (ws.flatMap be16).length = 2 * (BitVec.ofNat 16 ws.length).toNat := by rw [length_flatMap_be16, hk]
  have hv := validate_readResponse s.devAddr (data := ws.flatMap be16) (by omega) hlen
  rw [resultWords_readResponse _ hn] at hv
  have hinv (q : List PortItem) (turns : List Turn) :
      State.Inv { s with port := q, tp := { s.tp with turns := turns } } :=
    inv_port (inv_tp h { s.tp with turns := turns }) q
  let rx := readResponse s.devAddr (ws.flatMap be16)
  obtain ⟨u, hexec, hfails, hresult⟩ := execute_of_complete (hinv [] (cleanExchange rx)) (ts := [])
    (completeFrame_readResponse s.devAddr (by omega)) (List.append_nil _).symm hv
    (encRead (addressWord a) (BitVec.ofNat 16 ws.length))
  obtain ⟨n, hrun⟩ := readWords_reaches (hinv _ (cleanExchange rx)) hi ha (k := BitVec.ofNat 16 ws.length) rfl
  refine ⟨cleanExchange rx, n, completeCommand ws u, hrun.trans (congrArg _ hexec), rfl, rfl, hfails, ?_⟩
  exact completeCommand_resultList (hresult ▸ h.result_wf) hn

end Sys2Proof.Machine
end

section
/-! What an attempt and the loop of `execute` leave behind: the calls made, the cells written, the outcome (R150, R166 to
R169). -/

namespace Sys2Proof.Machine

open Sys2Proof.Claims

/-! ### Counting the calls -/

theorem sends_append (bus calls : List TCall) : sends (bus ++ calls) = sends bus + sends calls := List.countP_append

theorem sendsOf_append (frame : List Byte) (bus calls : List TCall) :
    sendsOf frame (bus ++ calls) = sendsOf frame bus + sendsOf frame calls := List.countP_append

theorem flushes_append (bus calls : List TCall) : flushes (bus ++ calls) = flushes bus + flushes calls :=
  List.countP_append

theorem sendsOf_send (frame : List Byte) (a : Answer) : sendsOf frame [.send frame a] = 1 := by
  simp [sendsOf]

/-- `u` is `s` after `j` attempts with `frame`, as the record of calls shows it. -/
structure Attempted (frame : List Byte) (j : Nat) (s u : State) : Prop where
  sends : sends u.tp.bus = sends s.tp.bus + j
  sendsOf : sendsOf frame u.tp.bus = sendsOf frame s.tp.bus + j
  flushes : flushes u.tp.bus = flushes s.tp.bus + j

theorem Attempted.trans {frame : List Byte} {i j : Nat} {s u v : State} (h : Attempted frame i s u)
    (h' : Attempted frame j u v) : Attempted frame (i + j) s v :=
  ⟨by rw [h'.sends, h.sends, Nat.add_assoc], by rw [h'.sendsOf, h.sendsOf, Nat.add_assoc],
    by rw [h'.flushes, h.flushes, Nat.add_assoc]⟩

theorem Attempted.of_bus {frame : List Byte} {j : Nat} {s u v : State} (h : Attempted frame j s u)
    (hbus : v.tp.bus = u.tp.bus) : Attempted frame j s v :=
  ⟨by rw [hbus, h.sends], by rw [hbus, h.sendsOf], by rw [hbus, h.flushes]⟩

/-- One `flushInput` and one `send` (R166). -/
theorem attempted_sentState (frame : List Byte) (s : State) : Attempted frame 1 s (sentState frame s) := by
  have hbus : (sentState frame s).tp.bus = s.tp.bus ++ [.flushInput s.tp.inBuf.length] ++
      [.send frame (Transport.flushInput s.tp).turn.answer] := by
    rw [← flushInput_bus, ← send_bus]
    rfl
  constructor
  · rw [hbus, sends_append, sends_append]
    rfl
  · rw [hbus, sendsOf_append, sendsOf_append, sendsOf_send]
    rfl
  · rw [hbus, flushes_append, flushes_append]
    rfl

theorem Attempted.recvByte {frame : List Byte} {j : Nat} {s u : State} (h : Attempted frame j s u) :
    Attempted frame j s { u with tp := (Transport.recvByte u.tp).2 } := by
  constructor
  · rw [recvByte_bus, sends_append, h.sends]
    rfl
  · rw [recvByte_bus, sendsOf_append, h.sendsOf]
    rfl
  · rw [recvByte_bus, flushes_append, h.flushes]
    rfl

/-! ### One attempt -/

/-- What its calls, its stores and its check keep, the receive half of an attempt keeps. -/
theorem attemptReceive_keeps {P : State → Prop} (htp : ∀ s, P s → P { s with tp := (Transport.recvByte s.tp).2 })
    (hbyte : ∀ b s, P s → P (storeByte b s)) (hneed : ∀ m s, P s → P (setNeed m s))
    (hcrc : ∀ c s, P s → P { s with crc := c }) (fn : Byte) (m : Mode) (k : Word) {s : State} (hs : P s) :
    P (attemptReceive fn m k s).2 := by
  have hhead := recvLoop_keeps P htp hbyte Config.headLen s hs
  rcases hr : recvLoop Config.headLen s with ⟨_ | r, t⟩ <;> rw [hr] at hhead
  · have hbody := recvLoop_keeps P htp hbyte ((setNeed m t).rxneed - Config.headLen) _ (hneed m t hhead)
    rw [attemptReceive_of_none hr]
    rcases hr' : recvLoop ((setNeed m t).rxneed - Config.headLen) (setNeed m t) with ⟨_ | r, u⟩ <;> rw [hr'] at hbody
    · rw [attemptBody_of_none hr']
      exact hcrc _ u hbody
    · rw [attemptBody_of_some hr']
      exact hbody
  · rw [attemptReceive_of_some hr]
    exact hhead

/-- What holds once the frame is sent and is kept by the receive half holds after the attempt. -/
theorem attempt_keeps_of_sent {P : State → Prop} (htp : ∀ s, P s → P { s with tp := (Transport.recvByte s.tp).2 })
    (hbyte : ∀ b s, P s → P (storeByte b s)) (hneed : ∀ m s, P s → P (setNeed m s))
    (hcrc : ∀ c s, P s → P { s with crc := c }) {frame : List Byte} (fn : Byte) (m : Mode) (k : Word) {s : State}
    (hs : P (sentState frame s)) : P (attempt frame fn m k s).2 := by
  cases ha : (Transport.flushInput s.tp).turn.answer with
  | ok =>
    rw [attempt_of_ok ha]
    exact attemptReceive_keeps htp hbyte hneed hcrc fn m k hs
  | fault =>
    rw [attempt_of_fault ha]
    exact hs
  | fatalFault =>
    rw [attempt_of_fatalFault ha]
    exact hs

theorem attempted_attempt (frame : List Byte) (fn : Byte) (m : Mode) (k : Word) (s : State) :
    Attempted frame 1 s (attempt frame fn m k s).2 :=
  attempt_keeps_of_sent (P := Attempted frame 1 s) (fun _ hu => hu.recvByte) (fun _ _ hu => hu.of_bus rfl)
    (fun _ _ hu => hu.of_bus rfl) (fun _ _ hu => hu.of_bus rfl) fn m k (attempted_sentState frame s)

/-- An attempt writes no cell of `RXBUF` beyond what it receives. -/
theorem read_rxbuf_attempt (frame : List Byte) (fn : Byte) (m : Mode) (k : Word) (s : State) {n : Nat}
    (hn : (attempt frame fn m k s).2.rxlen ≤ n) :
    Memory.read (attempt frame fn m k s).2.rxbuf n = Memory.read s.rxbuf n := by
  refine attempt_keeps_of_sent (P := fun u => ∀ n, u.rxlen ≤ n → Memory.read u.rxbuf n = Memory.read s.rxbuf n)
    (fun _ hu => hu) (fun b u hu n hn => ?_) (fun _ _ hu => hu) (fun _ _ hu => hu) fn m k (fun _ _ => rfl) n hn
  rw [storeByte_rxlen] at hn
  rw [storeByte_rxbuf, read_write_ne b (by omega), hu n (by omega)]

/-- Settles O55: the frame of the attempt, its two calls, and the cells it leaves alone. -/
theorem attemptFrame : Obligations.AttemptFrame := by
  intro s frame fn m k hi
  have hcalls := attempted_attempt frame fn m k s
  refine ⟨_, (attempt frame fn m k s).1, exec_attempt_of_idle hi frame fn m k, ?_, hcalls.sends, hcalls.flushes,
    fun n hn => read_rxbuf_attempt frame fn m k s hn⟩
  rw [attempt_frame]
  rfl

/-! ### The loop -/

theorem conclude_tp (r : AttemptResult × State) : (conclude r).tp = r.2.tp := by
  obtain ⟨r, s⟩ := r
  cases r with
  | ok ws => rfl
  | failed f => exact (failAttempt_tp_crc f s).1
  | fatal => rfl

theorem attempted_conclude (frame : List Byte) (fn : Byte) (m : Mode) (k : Word) (s : State) :
    Attempted frame 1 s (conclude (attempt frame fn m k s)) :=
  (attempted_attempt frame fn m k s).of_bus (by rw [conclude_tp])

/-- The outcome of the loop from `s` after `j` attempts: the words with `DONE`, all attempts failed, or the transport's fatal
fault (R150, R167, R168). -/
inductive Outcome (j : Nat) (s t : State) : Prop
  | done : t.seq = .idle → t.done = true → t.fails < t.maxAttempts → s.fails + j = t.fails + 1 → Outcome j s t
  | exhausted : t.seq = .fatal → t.fatalCause = .exhaustedRetries → s.fails + j = t.fails → Outcome j s t
  | transportFatal : t.seq = .fatal → t.fatalCause = .transportFatal → t.fails < t.maxAttempts →
      s.fails + j = t.fails + 1 → Outcome j s t

/-- `RESULT` beyond the result of `t` is as in `s`. -/
def ResultTail (s t : State) : Prop := ∀ a, t.resultLen ≤ a → Memory.read t.result a = Memory.read s.result a

theorem failAttempt_fails (f : Failure) (s : State) : (failAttempt f s).fails = s.fails + 1 := by
  rw [failAttempt_frame]

theorem failAttempt_maxAttempts (f : Failure) (s : State) : (failAttempt f s).maxAttempts = s.maxAttempts := by
  rw [failAttempt_frame]

/-- A concluded attempt ends the loop, or leaves one attempt less. -/
theorem conclude_cases {s : State} (r : AttemptResult) (h : s.fails < s.maxAttempts) :
    (Outcome 1 s (conclude (r, s)) ∧ ResultTail s (conclude (r, s)) ∧ (conclude (r, s)).seq ≠ .flush) ∨
      ((conclude (r, s)).seq = .flush ∧ (conclude (r, s)).fails = s.fails + 1 ∧
        (conclude (r, s)).fails < (conclude (r, s)).maxAttempts ∧ (conclude (r, s)).result = s.result) := by
  cases r with
  | ok ws =>
    exact .inl ⟨.done rfl rfl h rfl, fun a ha => read_result_completeCommand ws s ha, by simp [conclude]⟩
  | fatal => exact .inl ⟨.transportFatal rfl rfl h rfl, fun _ _ => rfl, by simp [conclude]⟩
  | failed f =>
    have hfails := failAttempt_fails f s
    have hmax := failAttempt_maxAttempts f s
    have hresult := failAttempt_result f s
    simp only [conclude]
    obtain ⟨hle, he⟩ | ⟨hlt, he⟩ := failAttempt_cases f s
    · refine .inl ⟨.exhausted ?_ ?_ hfails.symm, fun a _ => by rw [hresult], ?_⟩ <;> simp [he]
    · exact .inr ⟨by rw [he], hfails, by omega, hresult⟩

/-- The loop ends, with as many calls of each kind as it made attempts. -/
theorem executeLoop_outcome (frame : List Byte) (fn : Byte) (m : Mode) (k : Word) (n : Nat) {s : State}
    (hs : s.seq = .flush) (hlt : s.fails < s.maxAttempts) (hn : s.maxAttempts ≤ s.fails + n) :
    ∃ j, Attempted frame j s (executeLoop frame fn m k n s) ∧ Outcome j s (executeLoop frame fn m k n s) ∧
      ResultTail s (executeLoop frame fn m k n s) := by
  induction n generalizing s with
  | zero => omega
  | succ n ih =>
    have hcalls := attempted_conclude frame fn m k s
    have hkept : (attempt frame fn m k s).2.fails = s.fails ∧ (attempt frame fn m k s).2.maxAttempts = s.maxAttempts ∧
        (attempt frame fn m k s).2.result = s.result := by
      rw [attempt_frame]
      exact ⟨rfl, rfl, rfl⟩
    obtain ⟨hfails, hmax, hresult⟩ := hkept
    have hcases := conclude_cases (attempt frame fn m k s).1 (s := (attempt frame fn m k s).2) (by omega)
    have hframe := conclude_attempt_frame frame fn m k s
    rw [executeLoop_succ _ _ _ _ _ hs]
    simp only [Prod.mk.eta] at hcases
    generalize conclude (attempt frame fn m k s) = u at hcalls hcases hframe ⊢
    have humax : u.maxAttempts = s.maxAttempts := by rw [show u = _ from hframe]
    obtain ⟨hout, htail, hne⟩ | ⟨hflush, hone, hless, hres⟩ := hcases
    · rw [if_neg hne]
      refine ⟨1, hcalls, ?_, fun a ha => (htail a ha).trans (by rw [hresult])⟩
      cases hout with
      | done h1 h2 h3 h4 => exact .done h1 h2 h3 (hfails ▸ h4)
      | exhausted h1 h2 h3 => exact .exhausted h1 h2 (hfails ▸ h3)
      | transportFatal h1 h2 h3 h4 => exact .transportFatal h1 h2 h3 (hfails ▸ h4)
    · rw [if_pos hflush]
      obtain ⟨j, hmore, hout, htail⟩ := ih hflush hless (by omega)
      refine ⟨1 + j, hcalls.trans hmore, ?_, fun a ha => (htail a ha).trans (by rw [hres, hresult])⟩
      cases hout with
      | done h1 h2 h3 h4 => exact .done h1 h2 h3 (by omega)
      | exhausted h1 h2 h3 => exact .exhausted h1 h2 (by omega)
      | transportFatal h1 h2 h3 h4 => exact .transportFatal h1 h2 h3 (by omega)

/-! ### `execute` -/

/-- What acceptance wrote stands to the end, and the configuration with it. -/
theorem execute_latched (fn : Byte) (p : List Byte) (m : Mode) (k : Word) (s : State) :
    (execute fn p m k s).txbuf = (startRequest fn p m k s).txbuf ∧
      (execute fn p m k s).txlen = (startRequest fn p m k s).txlen ∧ (execute fn p m k s).maxAttempts = s.maxAttempts := by
  rw [show execute fn p m k s = _ from exchangeOnly_execute fn p m k s, prepareExecute_eq]
  exact ⟨rfl, rfl, rfl⟩

/-- What `execute` may change (R150). -/
theorem execute_frame (fn : Byte) (p : List Byte) (m : Mode) (k : Word) (s : State) :
    execute fn p m k s = { s with
      crc := (execute fn p m k s).crc, txbuf := (execute fn p m k s).txbuf, txlen := (execute fn p m k s).txlen
      rxbuf := (execute fn p m k s).rxbuf, rxlen := (execute fn p m k s).rxlen, rxneed := (execute fn p m k s).rxneed
      reqFn := fn, reqMode := m, reqCount := (if m = .selfdesc then k else s.reqCount)
      result := (execute fn p m k s).result, resultLen := (execute fn p m k s).resultLen
      seq := (execute fn p m k s).seq, fails := (execute fn p m k s).fails, done := (execute fn p m k s).done
      usage := false, fatal := (execute fn p m k s).fatal, firstWriteDone := s.firstWriteDone || writeClass fn
      lastFault := (execute fn p m k s).lastFault, excCode := (execute fn p m k s).excCode
      fatalCause := (execute fn p m k s).fatalCause, tp := (execute fn p m k s).tp } := by
  have h := exchangeOnly_execute fn p m k s
  obtain ⟨htxbuf, htxlen, -⟩ := execute_latched fn p m k s
  rw [prepareExecute_eq] at h
  rw [htxbuf, htxlen]
  exact h

theorem exec_execute_of_other {s : State} (hi : s.seq = .idle) {fn : Byte} (hfn : legalFn fn = false) (p : List Byte)
    (m : Mode) (k : Word) : exec (.execute fn p m k) s = .next (faulted .usageBadFunction s) := by
  show execExecute fn p m k s = _
  rw [execExecute, if_pos hi, if_neg (by simp [hfn])]
  rfl

/-- `execute` from a legal idle state: its attempts, its outcome, and the cells of `RESULT` it leaves alone. -/
theorem execute_outcome {s : State} (h : s.Inv) (fn : Byte) (p : List Byte) (m : Mode) (k : Word) :
    ∃ n, Attempted (requestFrame s.devAddr fn p) n s (execute fn p m k s) ∧
      Outcome n (prepareExecute fn p m k s) (execute fn p m k s) ∧ ResultTail s (execute fn p m k s) := by
  have hpos := h.maxAttempts_pos
  have hmax := prepareExecute_maxAttempts fn p m k s
  have hstart : (prepareExecute fn p m k s).fails = 0 ∧ (prepareExecute fn p m k s).tp = s.tp ∧
      (prepareExecute fn p m k s).result = s.result := by
    rw [prepareExecute_eq]
    exact ⟨rfl, rfl, rfl⟩
  obtain ⟨hfails, htp, hresult⟩ := hstart
  obtain ⟨n, hcalls, hout, htail⟩ := executeLoop_outcome (requestFrame s.devAddr fn p) fn m k (s.maxAttempts + 1)
    (prepareExecute_seq fn p m k s) (by omega) (by omega)
  exact ⟨n, ⟨htp ▸ hcalls.sends, htp ▸ hcalls.sendsOf, htp ▸ hcalls.flushes⟩, hout,
    fun a ha => (htail a ha).trans (by rw [hresult])⟩

/-- The flags, the value returned and the counter at the end, from the outcome and the invariant. -/
theorem end_of_outcome {n : Nat} {s t : State} (h : t.Inv) (hfails : s.fails = 0) (hout : Outcome n s t) :
    (t.seq = .idle ∧ t.done = true ∧ t.fatal = false ∧ executeRet t = .words t.resultList ∧ t.fails < t.maxAttempts ∧
        n = t.fails + 1) ∨
      (t.seq = .fatal ∧ t.done = false ∧ t.fatal = true ∧ t.resultLen = 0 ∧ executeRet t = .none ∧
        ((t.fatalCause = .exhaustedRetries ∧ t.fails = t.maxAttempts ∧ n = t.maxAttempts) ∨
          (t.fatalCause = .transportFatal ∧ t.fails < t.maxAttempts ∧ n = t.fails + 1))) := by
  have hended (hs : t.seq = .fatal) : t.done = false ∧ t.fatal = true ∧ t.resultLen = 0 ∧ executeRet t = .none := by
    obtain ⟨hdone, -, hlen⟩ := h.unfinished (by rw [hs]; decide)
    exact ⟨hdone, h.fatal_iff.2 hs, hlen, by simp [executeRet, hdone]⟩
  cases hout with
  | done hs hdone hlt hn =>
    have hfatal : t.fatal = false :=
      Bool.eq_false_iff.2 fun hf => absurd (hs.symm.trans (h.fatal_iff.1 hf)) (by decide)
    exact .inl ⟨hs, hdone, hfatal, by simp [executeRet, hdone], hlt, by omega⟩
  | exhausted hs hcause hn =>
    obtain ⟨hdone, hfatal, hlen, hret⟩ := hended hs
    have hall := h.exhausted hcause
    exact .inr ⟨hs, hdone, hfatal, hlen, hret, .inl ⟨hcause, hall, by omega⟩⟩
  | transportFatal hs hcause hlt hn =>
    obtain ⟨hdone, hfatal, hlen, hret⟩ := hended hs
    exact .inr ⟨hs, hdone, hfatal, hlen, hret, .inr ⟨hcause, hlt, by omega⟩⟩

/-- Settles O57: the loop's outcome, the invariant of the state it ends in, and the frame that acceptance left in `TXBUF`. -/
theorem executeEnds : Obligations.ExecuteEnds := by
  refine ⟨fun s fn p m k hi hfn => exec_execute_of_other hi hfn p m k, fun s fn p m k h hi hfn => ?_⟩
  have hframe := execute_frame fn p m k s
  obtain ⟨n, hcalls, hout, htail⟩ := execute_outcome h fn p m k
  have hfails : (prepareExecute fn p m k s).fails = 0 := by rw [prepareExecute_eq]; rfl
  have hend := end_of_outcome (inv_execute h hi fn p m k) hfails hout
  obtain ⟨htxbuf, htxlen, hmax⟩ := execute_latched fn p m k s
  have htx : (execute fn p m k s).txFrame = requestFrame s.devAddr fn p := by
    rw [State.txFrame, htxbuf, htxlen]
    exact txFrame_start fn p m k h.txbuf_wf
  rw [startRequest_txbuf] at htxbuf
  rw [startRequest_txlen] at htxlen
  rw [hmax] at hend
  refine ⟨_, n, exec_execute_of_legal hi hfn p m k, congrArg (setRet (executeRet (execute fn p m k s))) hframe,
    fun hp => ?_, fun hp => ?_, hcalls.sends, ?_, hcalls.flushes, fun a ha => ?_, htail, hend⟩
  · exact ⟨htxlen.trans (by rw [requestFrame_eq _ _ hp, buildFrame_length _ _ hp]), htx.trans (requestFrame_eq _ _ hp)⟩
  · exact htx.trans (congrArg (List.take Config.txbufMax) (buildFrame_of_long _ _ hp))
  · have hsame : State.txFrame (setRet (executeRet (execute fn p m k s)) (execute fn p m k s)) =
      requestFrame s.devAddr fn p := htx
    rw [hsame]
    exact hcalls.sendsOf
  · rw [setRet_txlen, htxlen] at ha
    rw [setRet_txbuf, htxbuf, read_writeList_ge _ (by omega)]

end Sys2Proof.Machine
end

section
/-! A response frame arrives while the block collects one (R47, R156, R157; log 11): the bytes are taken as the sequencer's
own steps take them. -/

namespace Sys2Proof.Machine

open Sys2Proof.Claims

/-! ### The transport plays no part in what a byte and a check do -/

theorem failAttempt_with_tp (f : Failure) (p : Transport) (s : State) :
    failAttempt f { s with tp := p } = { failAttempt f s with tp := p } := by
  obtain ⟨hle, he⟩ | ⟨hlt, he⟩ := failAttempt_cases f s
  · obtain ⟨-, he'⟩ | ⟨hlt, -⟩ := failAttempt_cases f { s with tp := p }
    · rw [he, he', recordFailure_frame, recordFailure_frame f s]
      cases f <;> rfl
    · exact absurd hle (Nat.not_le.2 hlt)
  · obtain ⟨hle, -⟩ | ⟨-, he'⟩ := failAttempt_cases f { s with tp := p }
    · exact absurd hle (Nat.not_le.2 hlt)
    · rw [he, he', recordFailure_frame, recordFailure_frame f s]
      cases f <;> rfl

theorem afterStore_with_tp (p : Transport) (s : State) :
    afterStore { s with tp := p } = { afterStore s with tp := p } := by
  unfold afterStore
  split
  · split <;> rfl
  · split <;> rfl

theorem checkPhase_with_tp (p : Transport) (s : State) :
    checkPhase { s with tp := p } = { checkPhase s with tp := p } := by
  have hverdict : State.verdict { s with tp := p } = s.verdict := rfl
  rw [checkPhase, checkPhase, hverdict]
  cases s.verdict with
  | ok ws => rfl
  | frameFault c => exact failAttempt_with_tp _ p { s with crc := crc16 s.rxFrame }
  | deviceException code => exact failAttempt_with_tp _ p { s with crc := crc16 s.rxFrame }

theorem checkPhase_tp (s : State) : (checkPhase s).tp = s.tp := by
  obtain ⟨ws, -, he⟩ | ⟨f, he⟩ := checkPhase_cases s <;> rw [he]
  · rfl
  · exact (failAttempt_tp_crc f _).1

theorem afterStore_port (s : State) : (afterStore s).port = s.port := (exchangeOnly_afterStore s).port

/-! ### Byte by byte -/

/-- `s` with the bytes `bs` buffered and `n` of them let through, one for each of the coming calls. -/
def supplied (bs : List Byte) (n : Nat) (s : State) : State :=
  { s with tp := { s.tp with inBuf := bs, turns := List.replicate n ⟨[], .ok⟩ ++ s.tp.turns } }

/-- A byte supplied is taken by the sequencer's step as the arriving frame's byte is. -/
theorem tick_supplied {s : State} (hr : s.receiving = true) (hlt : s.rxlen < Config.rxbufMax) (b : Byte)
    (bs : List Byte) (n : Nat) : tick (supplied (b :: bs) (n + 1) s) =
      .next (supplied bs n (afterStore (storeByte b (logByte b s)))) := by
  have hr' : (supplied (b :: bs) (n + 1) s).receiving = true := hr
  have hcall := recvByte_of_clean (tp := (supplied (b :: bs) (n + 1) s).tp) (b := b) (bs := bs)
    (ts := List.replicate n ⟨[], .ok⟩ ++ s.tp.turns) rfl rfl
  have hbyte : (Transport.recvByte (supplied (b :: bs) (n + 1) s).tp).1 = .byte b := by rw [hcall]
  rw [tick_of_receiving hr', recvPhase_of_byte (s := supplied (b :: bs) (n + 1) s) hlt hbyte, hcall]
  have hboth : afterStore (storeByte b (logByte b s)) = { afterStore (storeByte b s) with tp := (logByte b s).tp } :=
    afterStore_with_tp (logByte b s).tp (storeByte b s)
  rw [hboth]
  exact congrArg Host.Outcome.next (afterStore_with_tp _ (storeByte b s))

/-- A complete frame is checked in the sequencer's next step. -/
theorem supplied_reaches_checkIfComplete {s : State} (hport : s.port = []) (bs : List Byte) (n : Nat) :
    Reaches (supplied bs n s) (supplied bs n (checkIfComplete s)) := by
  unfold checkIfComplete
  split
  · next hs =>
    have hcheck : tick (supplied bs n s) = .next (checkPhase (supplied bs n s)) := tick_of_check hs
    have hsame : checkPhase (supplied bs n s) = supplied bs n (checkPhase s) := by
      rw [supplied, supplied, checkPhase_with_tp, checkPhase_tp]
    exact .of_tick hport (hsame ▸ hcheck)
  · exact .refl _

theorem checkIfComplete_port (s : State) : (checkIfComplete s).port = s.port := by
  unfold checkIfComplete
  split
  · next hs => exact tick_port (tick_of_check hs)
  · rfl

/-- The arrival of a frame leaves a state that the sequencer reaches by its own steps when the bytes are supplied. -/
theorem drain_reaches {bs : List Byte} {s t : State} (hport : s.port = []) (h : drain bs s = .next t) :
    ∃ n, Reaches (supplied bs n s) t := by
  induction bs generalizing s with
  | nil =>
    cases h
    exact ⟨0, .refl _⟩
  | cons b bs ih =>
    by_cases hr : s.receiving = true
    · simp only [drain, hr, if_true] at h
      cases hbyte : receiveByte b (logByte b s) with
      | next u =>
        obtain ⟨hlt, rfl⟩ := receiveByte_eq hbyte
        have huport : (afterStore (storeByte b (logByte b s))).port = [] := by
          rw [afterStore_port]
          exact hport
        simp only [hbyte] at h
        obtain ⟨n, hrest⟩ := ih (by rw [checkIfComplete_port, huport]) h
        refine ⟨n + 1, .trans (.of_tick hport (tick_supplied hr hlt b bs n)) ?_⟩
        exact .trans (supplied_reaches_checkIfComplete huport bs n) hrest
      | fault f =>
        simp only [hbyte] at h
        cases h
      | refused r =>
        simp only [hbyte] at h
        cases h
    · rw [drain_idle (Bool.eq_false_iff.2 hr)] at h
      cases h
      exact ⟨0, .refl _⟩

/-- Settles O51: both kinds of frame arrive byte by byte. -/
theorem responseIsReceived : Obligations.ResponseIsReceived := by
  refine ⟨fun s t i frame _ _ hport henc hexec => ?_, fun s t frame e _ _ hport _ hstep => ?_⟩
  · rw [exec_of_encode_rx henc] at hexec
    exact drain_reaches hport hexec
  · rw [step_of_taken hport (.inr rfl), takeItem_rx] at hstep
    exact drain_reaches (s := { s with port := [] }) rfl hstep

/-! ### A whole frame -/

/-- A byte of the frame is taken. -/
theorem drain_of_byte {s : State} (hr : s.receiving = true) (hlt : s.rxlen < Config.rxbufMax) (b : Byte)
    (bs : List Byte) : drain (b :: bs) s = drain bs (checkIfComplete (afterStore (storeByte b (logByte b s)))) := by
  have hbyte : receiveByte b (logByte b s) = .next (afterStore (storeByte b (logByte b s))) :=
    receiveByte_of_lt (s := logByte b s) hlt b
  simp only [drain, hr, if_true, hbyte]

theorem checkIfComplete_of_ne {s : State} (h : s.seq ≠ .check) : checkIfComplete s = s := if_neg h

/-- A phase takes the arriving bytes up to its limit. -/
theorem drain_collects {q : Phase} (hq : q = .recvHead ∨ q = .recvBody) {need limit : Nat} {last : State → State}
    (hlast : Collects q need limit last) (hlimit : limit ≤ 260) (bs more : List Byte) {s : State} (hs : s.seq = q)
    (hneed : s.rxneed = need) (hlen : s.rxlen + bs.length = limit) (hne : bs ≠ []) :
    ∃ p : Transport, drain (bs ++ more) s = drain more (checkIfComplete (last (received bs p s))) := by
  induction bs generalizing s with
  | nil => exact absurd rfl hne
  | cons b bs ih =>
    have hr : s.receiving = true := (receiving_iff s).2 (hs ▸ hq)
    have hcount : s.rxlen + 1 + bs.length = limit := by
      rw [List.length_cons] at hlen
      omega
    have hlt : s.rxlen < Config.rxbufMax := by
      simp only [Config.rxbufMax]
      omega
    have hstore := hlast (storeByte b (logByte b s)) hs hneed
    rw [List.cons_append, drain_of_byte hr hlt, hstore]
    by_cases hbs : bs = []
    · subst hbs
      have hfull : (storeByte b (logByte b s)).rxlen = limit := hcount
      rw [if_pos hfull]
      exact ⟨(logByte b s).tp, rfl⟩
    · have hmore : (storeByte b (logByte b s)).rxlen ≠ limit := by
        have := List.length_pos_iff.2 hbs
        show s.rxlen + 1 ≠ limit
        omega
      have hcheck : (storeByte b (logByte b s)).seq ≠ .check := by
        show s.seq ≠ .check
        rw [hs]
        obtain rfl | rfl := hq <;> decide
      rw [if_neg hmore, checkIfComplete_of_ne hcheck]
      obtain ⟨p, hrest⟩ := ih (s := storeByte b (logByte b s)) hs hneed hcount hbs
      refine ⟨p, hrest.trans ?_⟩
      congr 3
      simp only [received, storeByte_rxbuf, storeByte_rxlen, logByte_rxbuf, logByte_rxlen, hcount, hlen,
        Memory.writeList]
      rfl

theorem checkPhase_setInBuf (bs : List Byte) (s : State) :
    checkPhase (setInBuf bs s) = setInBuf bs (checkPhase s) := by
  have hsame : setInBuf bs (checkPhase s) = { checkPhase s with tp := { s.tp with inBuf := bs } } := by
    rw [setInBuf, checkPhase_tp]
  rw [hsame]
  exact checkPhase_with_tp { s.tp with inBuf := bs } s

/-- A complete frame that reaches a block awaiting a response is taken whole and checked. -/
theorem lineDelivers_of_complete {s : State} (h : awaiting s) {rx : List Byte}
    (hc : completeFrame rx s.reqMode = true) : ∃ p : Transport, p.inBuf = [] ∧
      lineDelivers rx s = .next (checkPhase { frameReceived rx p s with seq := .check }) := by
  obtain ⟨hinv, hs, hrxlen, hempty⟩ := h
  match rx with
  | h0 :: h1 :: h2 :: body =>
    have hlen : body.length + 3 = rxNeed h1 h2 s.reqMode := completeFrame_length hc
    have hle := rxNeed_le h1 h2 s.reqMode
    obtain ⟨p, hhead⟩ := drain_collects (.inl rfl) (collects_head s.rxneed) (by decide) [h0, h1, h2] body hs rfl
      (by rw [hrxlen]; rfl) (by simp)
    have hneed := setNeed_received_head hinv.rxbuf_wf hrxlen h0 h1 h2 p s.reqMode
    have hcount : (headComplete (received [h0, h1, h2] p s)).rxlen + body.length = rxNeed h1 h2 s.reqMode := by
      rw [← hlen, Nat.add_comm body.length]
      exact congrArg (· + 3 + body.length) hrxlen
    obtain ⟨q, hbody⟩ := drain_collects (s := headComplete (received [h0, h1, h2] p s)) (.inr rfl) (collects_body _)
      hle.2 body [] rfl hneed hcount (List.length_pos_iff.1 (by omega))
    have hall := received_body_head hinv.rxbuf_wf hrxlen (h0 := h0) hlen p q
    refine ⟨{ q with inBuf := [] }, rfl, ?_⟩
    have hdrain : lineDelivers (h0 :: h1 :: h2 :: body) s = drain ([h0, h1, h2] ++ body) s := by
      rw [lineDelivers, hempty]
      rfl
    rw [List.append_nil] at hbody
    rw [hdrain, hhead, checkIfComplete_of_ne (by simp [headComplete]), hbody]
    have hcheck : checkIfComplete (frameComplete (received body q (headComplete (received [h0, h1, h2] p s)))) =
        checkPhase { frameReceived (h0 :: h1 :: h2 :: body) q s with seq := .check } := by
      rw [← hall]
      exact if_pos rfl
    rw [hcheck, drain]
    exact congrArg Host.Outcome.next
      (checkPhase_setInBuf [] { frameReceived (h0 :: h1 :: h2 :: body) q s with seq := .check }).symm

theorem verdict_frameReceived {s : State} (hwf : Memory.wf Config.rxbufMax s.rxbuf = true) {rx : List Byte}
    (hlen : rx.length ≤ 260) (p : Transport) : State.verdict { frameReceived rx p s with seq := .check } =
      validate s.devAddr rx s.reqFn s.reqMode s.reqCount :=
  congrArg (fun f => validate s.devAddr f s.reqFn s.reqMode s.reqCount) (frameReceived_rxFrame hwf hlen p)

theorem read_rxbuf_frameReceived (rx : List Byte) (p : Transport) (s : State) {n : Nat} (hn : rx.length ≤ n) :
    Memory.read (frameReceived rx p s).rxbuf n = Memory.read s.rxbuf n :=
  read_writeList_ge rx (by omega)

/-- An awaited frame that passes ends the command with its words. -/
theorem lineDelivers_of_ok {s : State} (h : awaiting s) {rx : List Byte} (hc : completeFrame rx s.reqMode = true)
    {ws : List Word} (hv : validate s.devAddr rx s.reqFn s.reqMode s.reqCount = .ok ws) :
    ∃ t, lineDelivers rx s = .next t ∧ t.resultList = ws ∧
      t = { s with
        rxbuf := t.rxbuf, rxlen := rx.length, rxneed := rx.length, result := t.result, resultLen := ws.length
        done := true, seq := .idle, crc := 0, tp := t.tp } ∧
      t.tp.inBuf = [] ∧ t.rxFrame = rx ∧
      (∀ n, rx.length ≤ n → Memory.read t.rxbuf n = Memory.read s.rxbuf n) ∧
      ∀ n, ws.length ≤ n → Memory.read t.result n = Memory.read s.result n := by
  obtain ⟨p, hempty, hdrain⟩ := lineDelivers_of_complete h hc
  have hlen := completeFrame_length_le hc
  obtain ⟨hinv, -, -, -⟩ := h
  have hframe := frameReceived_rxFrame hinv.rxbuf_wf hlen p
  have hverdict := (verdict_frameReceived hinv.rxbuf_wf hlen p).trans hv
  obtain ⟨hcrc, -, -, -, -⟩ := validate_eq_ok_iff.1 hv
  have hcheck : crc16 (State.rxFrame { frameReceived rx p s with seq := .check }) = 0 := (congrArg crc16 hframe).trans hcrc
  rw [checkPhase_of_ok hverdict, hcheck] at hdrain
  exact ⟨_, hdrain, completeCommand_resultList hinv.result_wf (resultWords_length _ _ _ _ _ _ hv), rfl, hempty, hframe,
    fun n hn => read_rxbuf_frameReceived rx p s hn, fun n hn => read_result_completeCommand ws _ hn⟩

end Sys2Proof.Machine
end

section
/-! The awaited responses, row by row (R65 to R68, R134, R135, R138). -/

namespace Sys2Proof.Machine

open Sys2Proof.Claims

/-- A command in progress has the response length rule of its function code (R61). -/
theorem reqMode_of_awaiting {s : State} (h : awaiting s) : legalFn s.reqFn = true ∧ s.reqMode = modeOf s.reqFn := by
  obtain ⟨hinv, hs, -, -⟩ := h
  exact hinv.busy_fn ((busy_iff s).2 (by simp [hs]))

/-- Settles O52: the frame passes, and its words are made of its data bytes. -/
theorem readResponseCompletes : Obligations.ReadResponseCompletes := by
  intro s data h hfn hdata hn
  have hmode : s.reqMode = .selfdesc := by
    rw [(reqMode_of_awaiting h).2, hfn]
    rfl
  have hv : validate s.devAddr (readResponse s.devAddr data) s.reqFn s.reqMode s.reqCount =
      .ok (resultWords (readResponse s.devAddr data) .selfdesc s.reqCount) := by
    rw [hfn, hmode]
    exact validate_readResponse s.devAddr (by omega) hdata
  have hc : completeFrame (readResponse s.devAddr data) s.reqMode = true := by
    rw [hmode]
    exact completeFrame_readResponse s.devAddr (by omega)
  obtain ⟨t, hexec, hresult, hframe, hempty, hrx, hrxtail, htail⟩ := lineDelivers_of_ok h hc hv
  rw [length_readResponse] at hframe hrxtail
  rw [length_resultWords_selfdesc] at hframe htail
  have hlen : t.resultLen = s.reqCount.toNat := by rw [hframe]
  have hdone : t.seq = .idle ∧ t.done = true := by
    rw [hframe]
    exact ⟨rfl, rfl⟩
  refine ⟨t, hexec, hdone.1, hdone.2, hlen, fun i hi => ?_, ?_, hempty, hrx, hrxtail, htail⟩
  · rw [hresult, getElem?_resultWords_readResponse _ hdata hi, u16be]
  · rwa [hlen]

/-- The acknowledgment of a write, with its own CRC (R66, R67). -/
def ackResponse (dev fn : Byte) (x y : Word) : List Byte := appendCrc (twoFieldBody dev fn x y)

theorem writeClass_mode : ∀ fn : Byte, writeClass fn = true → modeOf fn = .fixed8 ∧ bit7 fn = false := by decide

theorem completeFrame_ackResponse (dev : Byte) {fn : Byte} (hfn : bit7 fn = false) (x y : Word) :
    completeFrame (ackResponse dev fn x y) .fixed8 = true := by
  have hneed : rxNeed fn (hiByte x) .fixed8 = 8 := by simp [rxNeed, hfn, Config.fixedRspLen]
  exact decide_eq_true hneed.symm

/-- An acknowledgment passes whatever it echoes (R133, R135). -/
theorem validate_ackResponse (dev fn : Byte) (x y k : Word) :
    validate dev (ackResponse dev fn x y) fn .fixed8 k = .ok [x, y] := by
  refine validate_eq_ok_iff.2 ⟨crc16_appendCrc _, rfl, rfl, nofun, ?_⟩
  show [u16be (hiByte x) (loByte x), u16be (hiByte y) (loByte y)] = [x, y]
  rw [u16be_bytes, u16be_bytes]

/-- The awaited acknowledgment ends a write. -/
theorem lineDelivers_ackResponse {s : State} (h : awaiting s) {fn : Byte} (hfn : s.reqFn = fn)
    (hw : writeClass fn = true) (x y : Word) :
    ∃ t, lineDelivers (ackResponse s.devAddr fn x y) s = .next t ∧ t.resultList = [x, y] ∧
      t = { s with
        rxbuf := t.rxbuf, rxlen := 8, rxneed := 8, result := t.result, resultLen := 2, done := true
        seq := .idle, crc := 0, tp := t.tp } ∧ t.tp.inBuf = [] ∧ t.rxFrame = ackResponse s.devAddr fn x y ∧
      (∀ n, 8 ≤ n → Memory.read t.rxbuf n = Memory.read s.rxbuf n) ∧
      ∀ n, 2 ≤ n → Memory.read t.result n = Memory.read s.result n := by
  subst hfn
  obtain ⟨hfixed, hbit⟩ := writeClass_mode s.reqFn hw
  have hmode : s.reqMode = .fixed8 := (reqMode_of_awaiting h).2.trans hfixed
  have hc : completeFrame (ackResponse s.devAddr s.reqFn x y) s.reqMode = true := by
    rw [hmode]
    exact completeFrame_ackResponse s.devAddr hbit x y
  have hv : validate s.devAddr (ackResponse s.devAddr s.reqFn x y) s.reqFn s.reqMode s.reqCount = .ok [x, y] := by
    rw [hmode]
    exact validate_ackResponse ..
  exact lineDelivers_of_ok h hc hv

/-- Settles O53: both rows are the acknowledgment of the request's own function code. -/
theorem acknowledgmentCompletes : Obligations.AcknowledgmentCompletes := fun _ x y h =>
  ⟨fun hfn => lineDelivers_ackResponse h hfn rfl x y, fun hfn => lineDelivers_ackResponse h hfn rfl x y⟩

/-- An exception response with its own CRC (R68). -/
def excResponse (dev fn code : Byte) : List Byte := appendCrc (rspExcBody dev fn code)

theorem completeFrame_excResponse (dev : Byte) {fn : Byte} (hfn : bit7 fn = true) (code : Byte) (m : Mode) :
    completeFrame (excResponse dev fn code) m = true := by
  have hneed : rxNeed fn code m = 5 := if_pos hfn
  exact decide_eq_true hneed.symm

/-- An exception response is a device exception for every request (R61, R133). -/
theorem validate_excResponse (dev : Byte) {fn : Byte} (hfn : bit7 fn = true) (code : Byte) {reqFn : Byte}
    (hreq : legalFn reqFn = true) (m : Mode) (k : Word) :
    validate dev (excResponse dev fn code) reqFn m k = .deviceException code := by
  have hne : fn ≠ reqFn := by
    rintro rfl
    obtain ⟨h3, h6, h10⟩ := not_legalFn_of_bit7 fn hfn
    simp [legalFn, h3, h6, h10] at hreq
  have haddr : byteAt (excResponse dev fn code) 0 = dev := rfl
  have hfun : byteAt (excResponse dev fn code) 1 = fn := rfl
  have hcode : byteAt (excResponse dev fn code) 2 = code := rfl
  have hcrc : crc16 (excResponse dev fn code) = 0 := crc16_appendCrc _
  rw [validate, if_neg (not_not.2 hcrc), haddr, hfun, hcode, if_neg (not_not.2 rfl), if_pos hne, if_pos hfn]

/-- Settles O54: the verdict is the device exception, which is one failed attempt. -/
theorem exceptionResponseFails : Obligations.ExceptionResponseFails := by
  intro s fn code h hfn
  have hc := completeFrame_excResponse s.devAddr hfn code s.reqMode
  have hlen := completeFrame_length_le hc
  have hv := validate_excResponse s.devAddr hfn code (reqMode_of_awaiting h).1 s.reqMode s.reqCount
  obtain ⟨p, hempty, hdrain⟩ := lineDelivers_of_complete h hc
  obtain ⟨hinv, -, -, -⟩ := h
  rw [checkPhase_of_exception ((verdict_frameReceived hinv.rxbuf_wf hlen p).trans hv)] at hdrain
  have hframe := frameReceived_rxFrame hinv.rxbuf_wf hlen p
  have hfailed (k : Word) :
      failAttempt (.exception code) { frameReceived (excResponse s.devAddr fn code) p s with seq := .check, crc := k } =
        failAttempt (.plain .deviceException) { s with
          excCode := code, rxbuf := Memory.writeList s.rxbuf 0 (excResponse s.devAddr fn code), rxlen := 5, rxneed := 5
          crc := k, tp := p } :=
    failAttempt_with_seq (.exception code) .check { frameReceived (excResponse s.devAddr fn code) p s with crc := k }
  have hkept (u : State) : (failAttempt (.plain .deviceException) u).rxbuf = u.rxbuf ∧
      (failAttempt (.plain .deviceException) u).rxneed = u.rxneed := by
    rw [failAttempt_frame]
    exact ⟨rfl, rfl⟩
  rw [hfailed] at hdrain
  refine ⟨_, hdrain, ?_, ?_, ?_, fun n hn => ?_⟩
  · rw [(hkept _).1]
    exact failedWith_failAttempt_crc .deviceException { s with
      excCode := code, rxbuf := Memory.writeList s.rxbuf 0 (excResponse s.devAddr fn code), rxlen := 5, rxneed := 5
      tp := p } _
  · rw [(failAttempt_tp_crc _ _).1]
    exact hempty
  · rw [State.rxFrame, (hkept _).1, (hkept _).2]
    exact hframe
  · rw [(hkept _).1]
    exact read_rxbuf_frameReceived _ p s hn

end Sys2Proof.Machine
end
